-- ==== Sys2Proof/Word.lean ====
section
/-! DEFINITION. The word types of the QMC mask core (spec/00_scope.md section 5): every quantity is unsigned. -/

namespace Sys2Proof

/-- A byte of a stream, of the buffer or of the Key Table (00_scope.md section 5). -/
abbrev Byte := BitVec 8

/-- A 32-bit register or command word (R9, R11, R28). -/
abbrev Word := BitVec 32

/-- A 64-bit keystream position (R8). -/
abbrev Position := BitVec 64

end Sys2Proof
end

