-- ==== Sys2Proof/Syntax.lean ====
section
/-! DEFINITION. What the block executes (spec/30_encoding.md R80, R92): one constructor of `Instr` per row of
spec/opcode_table.json, the values of `PHASE`, and the encoded forms. -/

namespace Sys2Proof

/-- The ten encoded things of R80: two host commands, five micro-operations, three resting phases. None has an operand
field (R86). -/
inductive Instr where
  | xform
  | maskq
  | idle
  | init
  | read
  | mask
  | write
  | adv
  | done
  | fail
deriving DecidableEq, Repr

/-- The values of the `PHASE` register (R25, R84). -/
inductive Phase where
  | idle
  | init
  | read
  | mask
  | write
  | adv
  | done
  | fail
deriving DecidableEq, Repr

/-- The resting phases (R80 c): the sequencer does nothing and the host may act. -/
def Phase.resting : Phase → Bool
  | .idle | .done | .fail => true
  | .init | .read | .mask | .write | .adv => false

/-- The phases in which the buffer holds a chunk (R40). -/
def Phase.holdsChunk : Phase → Bool
  | .mask | .write | .adv => true
  | .idle | .init | .read | .done | .fail => false

/-- An encoded thing: a 32-bit command word (R81) or a 3-bit `PHASE` value (R84). -/
inductive Code where
  | cmd (v : Word)
  | phase (c : BitVec 3)
deriving DecidableEq, Repr

/-- What a decoder answers: an instruction, or the reserved command word it rejects (R82, R87). -/
inductive Decoded where
  | command (i : Instr)
  | reserved (v : Word)
deriving DecidableEq, Repr

/-- A register access of the host as it reaches the block: byte offset and width in bits (R30, R37). -/
structure Access where
  off : Word
  width : Nat
deriving DecidableEq, Repr

end Sys2Proof
end

