-- ==== Sys2Proof/WellFormed.lean ====
section
/-! DEFINITION. The checks on what is written down: instructions, encoded words and register accesses. -/

namespace Sys2Proof

/-- No instruction has an operand field (R86), so there is nothing to check. -/
def Instr.wellFormed : Instr → Bool
  | .xform | .maskq | .idle | .init | .read | .mask | .write | .adv | .done | .fail => true

/-- `ZERO`, bits 31 to 8 of a command word, must be 0 (R81). -/
def zeroFieldOk (v : Word) : Bool := decide (v.toNat < 256)

/-- `OPC`, bits 7 to 0, must be an assigned command code (R81). -/
def opcodeOk (v : Word) : Bool := decide (v.toNat % 256 = 1 ∨ v.toNat % 256 = 2)

/-- A command word is one of the two assigned ones; every `PHASE` code is used (R81, R84). -/
def Code.wellFormed : Code → Bool
  | .cmd v => zeroFieldOk v && opcodeOk v
  | .phase _ => true

/-- The offset is a multiple of 4 (R30). -/
def Access.aligned (a : Access) : Bool := decide (a.off.toNat % 4 = 0)

/-- The offset lies in `0x00 .. 0xFC` (R30, R37). -/
def Access.inWindow (a : Access) : Bool := decide (a.off.toNat ≤ 0xFC)

/-- The access is 32 bits wide (R37). -/
def Access.wide (a : Access) : Bool := decide (a.width = 32)

/-- The accesses that are accesses to this block (R37). -/
def Access.wellFormed (a : Access) : Bool := a.aligned && a.inWindow && a.wide

end Sys2Proof
end

