-- ==== Sys2Proof/Decode.lean ====
section
/-! DEFINITION. The decoder of command words and phase codes (spec/30_encoding.md R81, R82, R84), total, and the encoder
beside it. -/

namespace Sys2Proof

/-- Decoding a command word, in the order of R82. -/
def decodeCmd (v : Word) : Decoded :=
  if v.extractLsb' 8 24 ≠ 0#24 then .reserved v
  else if v.extractLsb' 0 8 = 0x01#8 then .command .xform
  else if v.extractLsb' 0 8 = 0x02#8 then .command .maskq
  else .reserved v

/-- The phase a 3-bit code stands for (R84). -/
def phaseOfCode (c : BitVec 3) : Phase :=
  match c.toNat with
  | 0 => .idle
  | 1 => .init
  | 2 => .read
  | 3 => .mask
  | 4 => .write
  | 5 => .adv
  | 6 => .done
  | _ => .fail

/-- The row of format PHASE that stands for a phase (R80, R92). -/
def phaseInstr : Phase → Instr
  | .idle => .idle
  | .init => .init
  | .read => .read
  | .mask => .mask
  | .write => .write
  | .adv => .adv
  | .done => .done
  | .fail => .fail

/-- Decoding a `PHASE` value: all eight codes are used (R84). -/
def decodePhase (c : BitVec 3) : Instr := phaseInstr (phaseOfCode c)

/-- The decoder: total on command words and phase codes (R82, R88). -/
def decode : Code → Decoded
  | .cmd v => decodeCmd v
  | .phase c => .command (decodePhase c)

/-- The code of a phase (R84). -/
def phaseCode : Phase → BitVec 3
  | .idle => 0#3
  | .init => 1#3
  | .read => 2#3
  | .mask => 3#3
  | .write => 4#3
  | .adv => 5#3
  | .done => 6#3
  | .fail => 7#3

/-- The encoder (R81, R84). -/
def encode : Instr → Code
  | .xform => .cmd 0x00000001#32
  | .maskq => .cmd 0x00000002#32
  | .idle => .phase 0b000#3
  | .init => .phase 0b001#3
  | .read => .phase 0b010#3
  | .mask => .phase 0b011#3
  | .write => .phase 0b100#3
  | .adv => .phase 0b101#3
  | .done => .phase 0b110#3
  | .fail => .phase 0b111#3

/-- The encoded thing that `nbits` bits of a table row with value `w` are: 32 bits a command word, one byte the `PHASE`
register's three bits, whose mask is 0x7 (R92; log 20). -/
def tableCode (nbits w : Nat) : Option Code :=
  if nbits = 32 then some (.cmd (BitVec.ofNat 32 w))
  else if 3 ≤ nbits ∧ nbits ≤ 8 then some (.phase (BitVec.ofNat 3 w))
  else none

/-- The instruction the decoder reads from a table word; none where it refuses. -/
def decodeTableWord (nbits w : Nat) : Option Instr :=
  match tableCode nbits w with
  | none => none
  | some c =>
    match decode c with
    | .command i => some i
    | .reserved _ => none

end Sys2Proof
end

