-- ==== Sys2Proof/Config.lean ====
section
/-! DEFINITION. What an implementation fixes (the parameters of spec/00_scope.md section 4), and the free values: opaque
constants without a body, so that nothing can be proved of their values. -/

namespace Sys2Proof.Config

/-- `TABLE_LEN` (R6). -/
def tableLen : Nat := 128

/-- `WRAP`, the outer modulus (R7; 90_conflicts.md C1 decides for 32768). -/
def wrap : Nat := 32768

/-- `CHUNK_DEFAULT` (R9). -/
def chunkDefault : Word := 0x00100000#32

/-- The 125 bytes of `KEY_TABLE` that the spec leaves open (R10, D3, U11): free. DESIGN CHOICE, safe (log 12). -/
opaque openKeyByte : Fin tableLen → Byte

/-- `KEY_TABLE` (R10, R20): three bytes fixed by the spec, the rest open. -/
def keyTable (i : Fin tableLen) : Byte :=
  match i.val with
  | 0 => 0xC3#8
  | 1 => 0x4A#8
  | 2 => 0xD6#8
  | _ => openKeyByte i

/-- Whether the source port leaves its call number `n` unanswered for this step (R195, U9): free (log 5). -/
opaque srcWaits : Nat → Bool

/-- Whether the source port fails (R53, U9): free (log 5). -/
opaque srcFails : Nat → Bool

/-- How many bytes a source port that does not fail offers (R53, D11): free (log 5). -/
opaque srcCount : Nat → Nat

/-- The code of a failing source port (R53, U8): free (log 5). -/
opaque srcCode : Nat → Word

/-- Whether the sink port leaves its call unanswered for this step (R195, U9): free (log 6). -/
opaque snkWaits : Nat → Bool

/-- Whether the sink port fails (R54, U9): free (log 6). -/
opaque snkFails : Nat → Bool

/-- The code of a failing sink port (R54, U8): free (log 6). -/
opaque snkCode : Nat → Word

/-- How many bytes a failing sink port had taken (R54, U3): free (log 6). -/
opaque snkTaken : Nat → Nat

/-- What the source port still holds after a failed read (R53: unspecified): free (log 8). -/
opaque srcAfterFail : Nat → List Byte

/-- Whether that source is endless: free (log 8). -/
opaque endlessAfterFail : Nat → Bool

/-- The bytes of an endless source beyond those listed (R195), by the call that asks for them: free (log 13). -/
opaque streamByte : Nat → Nat → Byte

/-- `LEN` where it is unspecified: after reset (R41) and after a failed read (R143): free (logs 9, 10). -/
opaque freeLen : Nat → Word

/-- `BUF[i]` where it is unspecified (R22, R41, R143), by the generation of its contents: free (logs 9, 10). -/
opaque freeBuf : Nat → Nat → Byte

/-- `MASKVAL` after reset (R41, D27: any value, never taken as zero): free (log 10). -/
opaque freeMaskval : Nat → Byte

end Sys2Proof.Config
end

