-- ==== Sys2Proof/Machine/State.lean ====
section
/-! DEFINITION. The state of the block and of its environment as plain data (spec/10_state.md), the reasons a step can
stop, and the state after reset (R41). -/

namespace Sys2Proof.Machine

/-- The failure kinds of the `ERRKIND` field (R26, R180); codes 4 to 7 are never produced. -/
inductive ErrKind where
  | none
  | configError
  | ioFailure
  | badCommand
deriving DecidableEq, Repr

/-- What is connected to the two ports (R216, U10): nothing, two distinct streams, or two streams that alias. -/
inductive Binding where
  | unbound
  | bound
  | aliased
deriving DecidableEq, Repr

/-- An answer of the source port in a step whose SrcRead it is asked (R53, R195): not yet; that many bytes (what the port
gives is cut to what R53 admits, log 5); a failure with its code. -/
inductive SrcAnswer where
  | wait
  | deliver (k : Nat)
  | fail (code : Word)
deriving DecidableEq, Repr

/-- An answer of the sink port (R54, R195): not yet; all taken; a failure with its code after `j` bytes (cut to the chunk,
log 6). -/
inductive SnkAnswer where
  | wait
  | ok
  | fail (code : Word) (j : Nat)
deriving DecidableEq, Repr

/-- A move of the host in a resting phase (R89, R216, R218). -/
inductive HostMove where
  /-- `csr_write(off, v)`, with the width of the access in bits -/
  | write (off : Word) (width : Nat) (v : Word)
  /-- `csr_read(off)` -/
  | read (off : Word) (width : Nat)
  /-- binds two distinct streams for one run -/
  | bind (src snk : List Byte)
  /-- binds an endless source that begins with `front`, and a sink (R195; log 13) -/
  | bindEndless (front snk : List Byte)
  /-- binds one stream to both ports, which the spec gives no meaning (U10) -/
  | bindAliased (stream : List Byte)
  /-- the script line `reset` -/
  | reset
deriving DecidableEq, Repr

/-- An answered call on a port: the bytes asked for and got (none on a failure or at the end), or the bytes offered. The
model's own record (R60, R91; log 18). -/
inductive PortCall where
  | srcRead (asked : Word) (got : List Byte)
  | sinkWrite (offered : List Byte)
deriving DecidableEq, Repr

/-- Faults of the machine. There are none: every failure the spec describes is a next state in `FAIL` (R185), and no step
of the block stops it. Safe (log 19). -/
inductive Fault where
deriving DecidableEq, Repr

/-- The cases the spec says the model refuses. -/
inductive Refusal where
  /-- raised by an arm of `exec` whose instruction has no meaning yet; no arm does. Safe. -/
  | notModelled (mnemonic : String)
  /-- raised by XFORM with no stream pair bound (R216). Safe. -/
  | nothingBound
  /-- raised by XFORM with one stream bound to both ports (R216, U10). Safe. -/
  | streamsAlias
  /-- raised by XFORM and MASKQ when executed in a running phase, where the host has no move (R83, R217, U7). Safe. -/
  | commandInRun
  /-- raised by a register access that is misaligned, not 32 bits wide or outside the window (R37). Safe. -/
  | notAnAccess
deriving DecidableEq, Repr

/-- The block's registers and buffer, the two streams beside it, and the environment's part as plain data. -/
structure State where
  /-- `PHASE` (R25) -/
  phase : Phase
  /-- `OFFSET` (R21) -/
  offset : Position
  /-- `CHUNK` (R24) -/
  chunk : Word
  /-- `LEN` (R23) -/
  len : Word
  /-- `BUF` (R22): the bytes from index 0 that a rule has written -/
  buf : List Byte
  /-- the generation of the unspecified bytes of `BUF` above `buf` (log 9) -/
  bufGen : Nat
  /-- `ERRKIND` (R26) -/
  errkind : ErrKind
  /-- `ERRSITE` (R27): 0 read, 1 write -/
  errsite : BitVec 1
  /-- `IOCODE` (R28) -/
  iocode : Word
  /-- `POS` (R29) -/
  pos : Position
  /-- `MASKVAL` (R29) -/
  maskval : Byte
  /-- whether a stream pair is bound (R216) -/
  binding : Binding
  /-- the bytes the source port has yet to deliver (R39); of an endless source, the next ones -/
  src : List Byte
  /-- whether the source goes on for ever beyond `src` (R195; log 13) -/
  endless : Bool
  /-- the bytes the sink port has accepted (R39) -/
  snk : List Byte
  /-- the source port's coming answers (log 5) -/
  srcAnswers : List SrcAnswer
  /-- the sink port's coming answers (log 6) -/
  snkAnswers : List SnkAnswer
  /-- the host's moves not yet made (log 2) -/
  script : List HostMove
  /-- the level of the reset input at the coming step boundaries (log 4) -/
  resetLine : List Bool
  /-- what the host's reads have returned (log 18) -/
  reads : List Word
  /-- the answered calls on the streams bound last (log 18) -/
  portLog : List PortCall
  /-- the counter the free values are applied to (log 9) -/
  draws : Nat
deriving DecidableEq, Repr

/-- The state after reset (R41). `LEN`, `BUF` and `MASKVAL` are unspecified there: free values (log 10). The streams and
the environment's lists are empty and nothing is bound (log 11). -/
def State.reset : State where
  phase := .idle
  offset := 0#64
  chunk := Config.chunkDefault
  len := Config.freeLen 0
  buf := []
  bufGen := 0
  errkind := .none
  errsite := 0#1
  iocode := 0#32
  pos := 0#64
  maskval := Config.freeMaskval 0
  binding := .unbound
  src := []
  endless := false
  snk := []
  srcAnswers := []
  snkAnswers := []
  script := []
  resetLine := []
  reads := []
  portLog := []
  draws := 1

end Sys2Proof.Machine
end

