-- ==== Sys2Proof/Machine/Flags.lean ====
section
/-! DEFINITION. The status fields (spec/10_state.md R26, R27, R28, R31). The block has no arithmetic flags; what it has is
the outcome of the latest command. -/

namespace Sys2Proof.Machine

/-- A failure with what it records (R180). -/
inductive Failure where
  | config
  | readFailed (code : Word)
  | writeFailed (code : Word)
  | badCommand
deriving DecidableEq, Repr

/-- The value of `ERRKIND` a failure writes (R180, R185). -/
def failureKind : Failure → ErrKind
  | .config => .configError
  | .readFailed _ => .ioFailure
  | .writeFailed _ => .ioFailure
  | .badCommand => .badCommand

/-- The value of `ERRSITE` a failure writes (R27, R185). -/
def failureSite : Failure → BitVec 1
  | .writeFailed _ => 1#1
  | .config | .readFailed _ | .badCommand => 0#1

/-- The value of `IOCODE` a failure writes (R28, R185). -/
def failureCode : Failure → Word
  | .readFailed code => code
  | .writeFailed code => code
  | .config | .badCommand => 0#32

/-- The codes of `ERRKIND` (R26). -/
def errkindCode : ErrKind → BitVec 3
  | .none => 0#3
  | .configError => 1#3
  | .ioFailure => 2#3
  | .badCommand => 3#3

/-- The `STATUS` word (R31). -/
def statusWord (s : State) : Word :=
  0#24 ++ s.errsite ++ errkindCode s.errkind ++ 0#1 ++ phaseCode s.phase

end Sys2Proof.Machine
end

