-- ==== Sys2Proof/Machine/Operands.lean ====
section
/-! DEFINITION. The operands of commands and micro-operations: registers read whole, unsigned (spec/30_encoding.md R86),
the buffer's bytes (10_state.md R22) and the halves of the 64-bit registers (R34, R35). -/

namespace Sys2Proof.Machine

/-- A 32-bit value entering 64-bit arithmetic (R86). -/
def zext64 (w : Word) : Position := w.setWidth 64

/-- `BUF[i]`: what a rule has written there, else the unspecified byte (R22; log 9). -/
def bufByte (s : State) (i : Nat) : Byte := s.buf.getD i (Config.freeBuf s.bufGen i)

/-- `BUF[0 .. LEN-1]` (R122, R145). -/
def bufChunk (s : State) : List Byte := (List.range s.len.toNat).map (bufByte s)

/-- Bits 31 to 0 of a 64-bit register, at the lower offset (R34, R35). -/
def lowHalf (p : Position) : Word := p.extractLsb' 0 32

/-- Bits 63 to 32 of a 64-bit register (R34, R35). -/
def highHalf (p : Position) : Word := p.extractLsb' 32 32

/-- `{hi, lo}` (00_scope.md section 5). -/
def joinHalves (hi lo : Word) : Position := hi ++ lo

end Sys2Proof.Machine
end

