-- ==== Sys2Proof/Machine/Ops.lean ====
section
/-! DEFINITION. The shared operations: entering a failure (spec/60_exceptions.md R185) and leaving one (R189), the two port
calls (20_memory.md R53, R54), releasing the streams at the end of a run, and hardware reset (R210). -/

namespace Sys2Proof.Machine

/-- `raise` (R185): records the failure and rests in `FAIL`. -/
def raise (f : Failure) (s : State) : State :=
  { s with
    errkind := failureKind f
    errsite := failureSite f
    iocode := failureCode f
    phase := .fail }

/-- What replaces a return from failure: acceptance of XFORM clears the error fields (R141, R189, R42). -/
def clearErrors (s : State) : State :=
  { s with errkind := .none, errsite := 0#1, iocode := 0#32 }

/-- The run is over and its stream pair is no longer bound: "a binding holds for one run" (R216; log 14). -/
def release (s : State) : State := { s with binding := .unbound }

/-- The source port's answer in this step (R53): the environment's next one, else a free one (log 5). -/
def nextSrcAnswer (s : State) : SrcAnswer :=
  match s.srcAnswers with
  | a :: _ => a
  | [] =>
    if Config.srcWaits s.draws then .wait
    else if Config.srcFails s.draws then .fail (Config.srcCode s.draws)
    else .deliver (Config.srcCount s.draws)

/-- The sink port's answer in this step (R54): the environment's next one, else a free one (log 6). -/
def nextSnkAnswer (s : State) : SnkAnswer :=
  match s.snkAnswers with
  | a :: _ => a
  | [] =>
    if Config.snkWaits s.draws then .wait
    else if Config.snkFails s.draws then .fail (Config.snkCode s.draws) (Config.snkTaken s.draws)
    else .ok

/-- How many bytes a read of `n` delivers when the port offers `k` and holds `m`: the offer cut to
`1 .. min(n, m)`, and 0 exactly when there is nothing to deliver (R53; log 5). -/
def readCount (k : Nat) (n : Word) (m : Nat) : Nat := min (max 1 k) (min n.toNat m)

/-- The bytes a `SrcRead(n)` can draw on: what the source has yet to deliver, which for an endless source is at least `n`
bytes (R53, R195; log 13). -/
def srcHeld (n : Word) (s : State) : List Byte :=
  if s.endless then s.src ++ (List.range (n.toNat - s.src.length)).map (Config.streamByte s.draws) else s.src

/-- What a port call tells the block (R53, R54, R195). -/
inductive SrcReply where
  | waiting
  | ok (bs : List Byte)
  | failed (code : Word)
deriving DecidableEq, Repr

inductive SnkReply where
  | waiting
  | ok
  | failed (code : Word)
deriving DecidableEq, Repr

/-- The answer of `SrcRead(n)` (R53). -/
def srcReply (n : Word) (s : State) : SrcReply :=
  match nextSrcAnswer s with
  | .wait => .waiting
  | .deliver k => .ok ((srcHeld n s).take (readCount k n (srcHeld n s).length))
  | .fail code => .failed code

/-- What the source port holds after `SrcRead(n)` (R53): what it has not delivered; unspecified after a failure (log 8). -/
def srcLeft (n : Word) (s : State) : List Byte :=
  match nextSrcAnswer s with
  | .wait => s.src
  | .deliver k => (srcHeld n s).drop (readCount k n (srcHeld n s).length)
  | .fail _ => Config.srcAfterFail s.draws

/-- Whether the source is endless after `SrcRead`: as before; unspecified after a failure (R53; log 8). -/
def srcEndless (s : State) : Bool :=
  match nextSrcAnswer s with
  | .wait => s.endless
  | .deliver _ => s.endless
  | .fail _ => Config.endlessAfterFail s.draws

/-- The record of an answered `SrcRead(n)` (log 18). -/
def srcCall (n : Word) (s : State) : List PortCall :=
  match srcReply n s with
  | .waiting => []
  | .ok bs => [.srcRead n bs]
  | .failed _ => [.srcRead n []]

/-- The state after the port's side of `SrcRead(n)`: the answer is used up and the port has given what it gives. -/
def afterSrcRead (n : Word) (s : State) : State :=
  { s with
    src := srcLeft n s
    endless := srcEndless s
    srcAnswers := s.srcAnswers.tail
    portLog := s.portLog ++ srcCall n s
    draws := s.draws + 1 }

/-- The answer of `SinkWrite` (R54). The block does not learn how much a failing sink took. -/
def snkReply (s : State) : SnkReply :=
  match nextSnkAnswer s with
  | .wait => .waiting
  | .ok => .ok
  | .fail code _ => .failed code

/-- What the sink port takes of `bs` (R54): all of it, or a part from the front when it fails. -/
def snkTakes (bs : List Byte) (s : State) : List Byte :=
  match nextSnkAnswer s with
  | .wait => []
  | .ok => bs
  | .fail _ j => bs.take j

/-- The record of an answered `SinkWrite(bs)` (log 18). -/
def snkCall (bs : List Byte) (s : State) : List PortCall :=
  match snkReply s with
  | .waiting => []
  | .ok => [.sinkWrite bs]
  | .failed _ => [.sinkWrite bs]

/-- The state after the port's side of `SinkWrite(bs)`. -/
def afterSinkWrite (bs : List Byte) (s : State) : State :=
  { s with
    snk := s.snk ++ snkTakes bs s
    snkAnswers := s.snkAnswers.tail
    portLog := s.portLog ++ snkCall bs s
    draws := s.draws + 1 }

/-- Hardware reset (R210), in any phase: the values of R41, fresh unspecified values for `MASKVAL`, `LEN`, `BUF`; the streams
are not touched, and the host must bind again (R218; log 14). -/
def applyReset (s : State) : State :=
  { s with
    phase := .idle
    offset := 0#64
    chunk := Config.chunkDefault
    len := Config.freeLen s.draws
    buf := []
    bufGen := s.draws
    errkind := .none
    errsite := 0#1
    iocode := 0#32
    pos := 0#64
    maskval := Config.freeMaskval s.draws
    binding := .unbound
    draws := s.draws + 1 }

end Sys2Proof.Machine
end

