-- ==== Sys2Proof/Machine/Bus.lean ====
section
/-! DEFINITION. The register bank (spec/10_state.md R30 to R37): the register at an offset, reads and writes. Writing
`CMD` submits a command, which Machine/Moves.lean does. -/

namespace Sys2Proof.Machine

/-- The registers of the map of R30; a reserved offset is a register of its own kind. -/
inductive Reg where
  | cmd
  | status
  | chunk
  | iocode
  | offsetLo
  | offsetHi
  | posLo
  | posHi
  | maskval
  | reserved
deriving DecidableEq, Repr

/-- The register an access reaches; none where it is no access to this block (R30, R37). -/
def regAt (off : Word) (width : Nat) : Option Reg :=
  if width = 32 ∧ off.toNat % 4 = 0 ∧ off.toNat < 256 then
    match off.toNat with
    | 0x00 => some .cmd
    | 0x04 => some .status
    | 0x08 => some .chunk
    | 0x0C => some .iocode
    | 0x10 => some .offsetLo
    | 0x14 => some .offsetHi
    | 0x18 => some .posLo
    | 0x1C => some .posHi
    | 0x20 => some .maskval
    | _ => some .reserved
  else none

/-- The value of `csr_read` (R31 to R37). -/
def csrValue (r : Reg) (s : State) : Word :=
  match r with
  | .cmd => 0#32
  | .status => statusWord s
  | .chunk => s.chunk
  | .iocode => s.iocode
  | .offsetLo => lowHalf s.offset
  | .offsetHi => highHalf s.offset
  | .posLo => lowHalf s.pos
  | .posHi => highHalf s.pos
  | .maskval => s.maskval.setWidth 32
  | .reserved => 0#32

/-- `csr_write` to a register other than `CMD` (R33, R35, R37): read-only and reserved registers ignore it. -/
def csrStore (r : Reg) (v : Word) (s : State) : State :=
  match r with
  | .chunk => { s with chunk := v }
  | .posLo => { s with pos := joinHalves (highHalf s.pos) v }
  | .posHi => { s with pos := joinHalves v (lowHalf s.pos) }
  | .cmd | .status | .iocode | .offsetLo | .offsetHi | .maskval | .reserved => s

/-- The offset of a register (R30); the first reserved one stands for the reserved offsets. -/
def regOffset : Reg → Word
  | .cmd => 0x00#32
  | .status => 0x04#32
  | .chunk => 0x08#32
  | .iocode => 0x0C#32
  | .offsetLo => 0x10#32
  | .offsetHi => 0x14#32
  | .posLo => 0x18#32
  | .posHi => 0x1C#32
  | .maskval => 0x20#32
  | .reserved => 0x24#32

end Sys2Proof.Machine
end

