-- ==== Sys2Proof/Machine/Keystream.lean ====
section
/-! DEFINITION. The Keystream Generator and XOR masking (spec/40_keystream.md, 41_xor_mask.md): pure functions. The forms
with a table argument serve any `KEY_TABLE`; the block's own are those of `Config.keyTable`. -/

namespace Sys2Proof.Machine

/-- `kidx(p)` (R100): in range by construction (R51). -/
def kidx (p : Nat) : Fin Config.tableLen :=
  ⟨p % Config.wrap % Config.tableLen, Nat.mod_lt _ (by decide)⟩

/-- `mask(p)` for a given table (R101). -/
def maskBy (table : Fin Config.tableLen → Byte) (p : Nat) : Byte := table (kidx p)

/-- `xorb(b, p)` for a given table (R120). -/
def xorbBy (table : Fin Config.tableLen → Byte) (b : Byte) (p : Nat) : Byte := b ^^^ maskBy table p

/-- `maskbuf(o, bs)` for a given table (R126): byte `i` is masked at position `(o + i) mod 2^64`. -/
def maskbufBy (table : Fin Config.tableLen → Byte) (o : Position) (bs : List Byte) : List Byte :=
  bs.mapIdx fun i b => xorbBy table b (o + BitVec.ofNat 64 i).toNat

/-- `mask(p)` (R101). -/
def mask (p : Nat) : Byte := maskBy Config.keyTable p

/-- `xorb(b, p)` (R120). -/
def xorb (b : Byte) (p : Nat) : Byte := xorbBy Config.keyTable b p

/-- `maskbuf(o, bs)` (R126). -/
def maskbuf (o : Position) (bs : List Byte) : List Byte := maskbufBy Config.keyTable o bs

end Sys2Proof.Machine
end

