-- ==== Sys2Proof/Machine/Command.lean ====
section
/-! DEFINITION. The two host commands, format CMD (spec/42_stream_transformer.md R141, 40_keystream.md R104). Both are
admitted in a resting phase only (30_encoding.md R83). -/

namespace Sys2Proof.Machine

/-- XFORM, acceptance (R141): needs a bound stream pair (R216). The sequencer does the rest. -/
def execXform (s : State) : Host.Outcome State Fault Refusal :=
  if s.phase.resting then
    match s.binding with
    | .unbound => .refused .nothingBound
    | .aliased => .refused .streamsAlias
    | .bound => .next { clearErrors s with phase := .init }
  else .refused .commandInRun

/-- MASKQ (R104): one read of the Key Table at `POS`; nothing else changes. -/
def execMaskq (s : State) : Host.Outcome State Fault Refusal :=
  if s.phase.resting then .next { s with maskval := mask s.pos.toNat }
  else .refused .commandInRun

end Sys2Proof.Machine
end

