-- ==== Sys2Proof/Machine/Sequencer.lean ====
section
/-! DEFINITION. The five micro-operations (spec/42_stream_transformer.md R142, R143, R145, R146; 41_xor_mask.md R122) and
the three resting phases (R155, R144, R147), format PHASE. -/

namespace Sys2Proof.Machine

/-- IDLE (R155): the sequencer has no step. -/
def execIdle (s : State) : Host.Outcome State Fault Refusal := .next s

/-- INIT (R142): the counters start at 0; a zero `CHUNK` is a ConfigError before any port call. -/
def execInit (s : State) : Host.Outcome State Fault Refusal :=
  let started := { s with offset := 0#64, len := 0#32 }
  .next (if s.chunk = 0#32 then release (raise .config started) else { started with phase := .read })

/-- What READ does with the port's answer (R143). A port that has not answered leaves the step not taken (R195; log 7). After
a failure `LEN` and `BUF` are unspecified (log 9). -/
def finishRead (r : SrcReply) (s : State) : State :=
  match r with
  | .waiting => s
  | .failed code =>
    release (raise (.readFailed code)
      { s with len := Config.freeLen s.draws, buf := [], bufGen := s.draws, draws := s.draws + 1 })
  | .ok [] => release { s with len := 0#32, phase := .done }
  | .ok (b :: bs) =>
    { s with
      buf := (b :: bs) ++ s.buf.drop (b :: bs).length
      len := BitVec.ofNat 32 (b :: bs).length
      phase := .mask }

/-- READ (R143): one `SrcRead(CHUNK)`. -/
def execRead (s : State) : Host.Outcome State Fault Refusal :=
  .next (finishRead (srcReply s.chunk s) (afterSrcRead s.chunk s))

/-- MASK (R122): the first `LEN` bytes of the buffer are masked at `OFFSET`, in place. -/
def execMask (s : State) : Host.Outcome State Fault Refusal :=
  .next
    { s with
      buf := maskbuf s.offset (bufChunk s) ++ s.buf.drop s.len.toNat
      phase := .write }

/-- What WRITE does with the port's answer (R145). A port that has not answered leaves the step not taken (R195; log 7). -/
def finishWrite (r : SnkReply) (s : State) : State :=
  match r with
  | .waiting => s
  | .ok => { s with phase := .adv }
  | .failed code => release (raise (.writeFailed code) s)

/-- WRITE (R145): one `SinkWrite(BUF[0 .. LEN-1])`. -/
def execWrite (s : State) : Host.Outcome State Fault Refusal :=
  .next (finishWrite (snkReply s) (afterSinkWrite (bufChunk s) s))

/-- ADV (R146): the position advances by `LEN`, modulo 2^64. -/
def execAdv (s : State) : Host.Outcome State Fault Refusal :=
  .next { s with offset := s.offset + zext64 s.len, phase := .read }

/-- DONE (R144): the sequencer has no step. -/
def execDone (s : State) : Host.Outcome State Fault Refusal := .next s

/-- FAIL (R147): the sequencer has no step. -/
def execFail (s : State) : Host.Outcome State Fault Refusal := .next s

end Sys2Proof.Machine
end

