-- ==== Sys2Proof/Machine/Dispatch.lean ====
section
/-! DEFINITION. exec: one arm per constructor of Instr. -/

namespace Sys2Proof.Machine

def exec (i : Instr) (s : State) : Host.Outcome State Fault Refusal :=
  match i with
  | .xform => Sys2Proof.Machine.execXform s
  | .maskq => Sys2Proof.Machine.execMaskq s
  | .idle => Sys2Proof.Machine.execIdle s
  | .init => Sys2Proof.Machine.execInit s
  | .read => Sys2Proof.Machine.execRead s
  | .mask => Sys2Proof.Machine.execMask s
  | .write => Sys2Proof.Machine.execWrite s
  | .adv => Sys2Proof.Machine.execAdv s
  | .done => Sys2Proof.Machine.execDone s
  | .fail => Sys2Proof.Machine.execFail s

end Sys2Proof.Machine
end

