-- ==== Sys2Proof/Machine/Moves.lean ====
section
/-! DEFINITION. What happens at a step boundary: the reset input (spec/70_reset_and_hazards.md R210), the host's move in a
resting phase (R217, R218) with the submission of a command (30_encoding.md R83), else the sequencer's step. -/

namespace Sys2Proof.Machine

/-- Submitting a command word (R82, R83, R87): a command is performed, a reserved word raises BadCommand. -/
def submit (v : Word) (s : State) : Host.Outcome State Fault Refusal :=
  match decode (.cmd v) with
  | .command i => exec i s
  | .reserved _ => .next (raise .badCommand s)

/-- `csr_write(off, v)` (R30, R32, R37). -/
def hostWrite (off : Word) (width : Nat) (v : Word) (s : State) : Host.Outcome State Fault Refusal :=
  match regAt off width with
  | none => .refused .notAnAccess
  | some .cmd => submit v s
  | some r => .next (csrStore r v s)

/-- `csr_read(off)` (R30, R37): the host gets the value and nothing else changes. -/
def hostRead (off : Word) (width : Nat) (s : State) : Host.Outcome State Fault Refusal :=
  match regAt off width with
  | none => .refused .notAnAccess
  | some r => .next { s with reads := s.reads ++ [csrValue r s] }

/-- Connecting streams to the ports (R216), with a fresh record of calls (log 18). -/
def connect (b : Binding) (endless : Bool) (src snk : List Byte) (s : State) : State :=
  { s with binding := b, endless := endless, src := src, snk := snk, portLog := [] }

/-- One move of the host (R89, R216, R218). -/
def hostMove (m : HostMove) (s : State) : Host.Outcome State Fault Refusal :=
  match m with
  | .write off width v => hostWrite off width v s
  | .read off width => hostRead off width s
  | .bind src snk => .next (connect .bound false src snk s)
  | .bindEndless front snk => .next (connect .bound true front snk s)
  | .bindAliased stream => .next (connect .aliased false stream stream s)
  | .reset => .next (applyReset s)

/-- The sequencer's step: what `PHASE` names (R25, R84). -/
def sequence (s : State) : Host.Outcome State Fault Refusal :=
  exec (decodePhase (phaseCode s.phase)) s

/-- A step without reset: the host moves in a resting phase (R217), else the sequencer steps. -/
def advance (s : State) : Host.Outcome State Fault Refusal :=
  if s.phase.resting then
    match s.script with
    | [] => sequence s
    | m :: rest => hostMove m { s with script := rest }
  else sequence s

/-- The level of the reset input for this boundary is used up (log 4). -/
def usedLevel (s : State) : State := { s with resetLine := s.resetLine.tail }

/-- A step boundary: the reset input first (R210), whatever the phase. -/
def stepBoundary (s : State) : Host.Outcome State Fault Refusal :=
  if s.resetLine.head? = some true then .next (applyReset (usedLevel s))
  else advance (usedLevel s)

/-- The state in which the next step executes an encoded instruction (log 3): a command word is the host's next move, on a
bound stream pair and in a resting phase; a phase code is the value of `PHASE`, with no host move before it. -/
def placeCode (c : Code) (s : State) : State :=
  match c with
  | .cmd v =>
    { s with
      resetLine := []
      phase := if s.phase.resting then s.phase else .idle
      binding := .bound
      script := [.write (regOffset .cmd) 32 v] ++ s.script }
  | .phase p => { s with resetLine := [], phase := phaseOfCode p, script := [] }

end Sys2Proof.Machine
end

