-- ==== Sys2Proof/Machine/Step.lean ====
section
/-! DEFINITION. The step of the machine, and the state in which the next step runs a given word. -/

namespace Sys2Proof.Machine

/-- One atomic step (spec/00_scope.md R5). -/
def step (s : State) : Host.Outcome State Fault Refusal := stepBoundary s

/-- `s` with a table word placed where the next step takes its instruction from (log 3). -/
def State.withFetchWord (s : State) (nbits w : Nat) : State :=
  match tableCode nbits w with
  | none => s
  | some c => placeCode c s

end Sys2Proof.Machine
end

