-- ==== Sys2Proof/Machine/Script.lean ====
section
/-! DEFINITION. Script lines and pseudo-instructions of the host (spec/30_encoding.md R89, R90) and their bus
transactions. -/

namespace Sys2Proof.Machine

/-- A line of a script (R89). -/
inductive Line where
  | reset
  | bind (src snk : List Byte)
  | wr (r : Reg) (v : Word)
  | rd (r : Reg)
  | xform
  | maskq
  | cmd (v : Word)
deriving DecidableEq, Repr

/-- A bus transaction `W off value` or `R off` (R89). -/
inductive Transaction where
  | w (off v : Word)
  | r (off : Word)
deriving DecidableEq, Repr

/-- The host move a line means (R89). -/
def lineMove : Line → HostMove
  | .reset => .reset
  | .bind src snk => .bind src snk
  | .wr r v => .write (regOffset r) 32 v
  | .rd r => .read (regOffset r) 32
  | .xform => .write 0x00#32 32 0x00000001#32
  | .maskq => .write 0x00#32 32 0x00000002#32
  | .cmd v => .write 0x00#32 32 v

/-- The encoding of a line: its bus transaction; `reset` and `bind` have none (R89). -/
def lineEncoding (l : Line) : List Transaction :=
  match lineMove l with
  | .write off _ v => [.w off v]
  | .read off _ => [.r off]
  | .bind _ _ | .bindEndless _ _ | .bindAliased _ | .reset => []

/-- `setchunk n` (R90). -/
def scriptSetchunk (n : Word) : List Line := [.wr .chunk n]

/-- `setpos p` (R90). -/
def scriptSetpos (p : Position) : List Line := [.wr .posLo (lowHalf p), .wr .posHi (highHalf p)]

/-- `transform n` (R90). -/
def scriptTransform (n : Word) : List Line := scriptSetchunk n ++ [.xform]

/-- `mask p` (R90). -/
def scriptMask (p : Position) : List Line := scriptSetpos p ++ [.maskq, .rd .maskval]

/-- `decode` (R90): the same command as `encode` (R3). -/
def scriptDecode : List Line := [.xform]

/-- `encode` (R90). -/
def scriptEncode : List Line := [.xform]

/-- `status` (R90). -/
def scriptStatus : List Line := [.rd .status]

/-- `count` (R90). -/
def scriptCount : List Line := [.rd .offsetLo, .rd .offsetHi]

/-- `n` answers of the reference source port (R67): every read is full, short only at the end. -/
def referenceSource (n : Nat) : List SrcAnswer := List.replicate n (.deliver 0xFFFFFFFF)

/-- `n` answers of the reference sink port (R67): every write is taken. -/
def referenceSink (n : Nat) : List SnkAnswer := List.replicate n .ok

end Sys2Proof.Machine
end

