-- ==== Sys2Proof/Safety.lean ====
section
/-! DEFINITION. What a safe state and a finished run are: the invariants every step keeps, and the run from acceptance to
its resting phase (spec/42_stream_transformer.md R158). -/

namespace Sys2Proof.Machine

/-- What the rules promise of the block's registers in every reachable state. -/
structure State.Inv (s : State) : Prop where
  /-- `ERRSITE` and `IOCODE` are 0 unless the failure is an IOFailure (R27, R28) -/
  quietUnlessIo : s.errkind ≠ .ioFailure → s.errsite = 0#1 ∧ s.iocode = 0#32
  /-- failure is `FAIL` with a kind, and no other phase shows a kind (R26) -/
  failIffKind : s.phase = .fail ↔ s.errkind ≠ .none
  /-- the run goes on only with a non-zero `CHUNK` (R142, R182) -/
  chunkInRun : s.phase.resting = false → s.phase ≠ .init → s.chunk ≠ 0#32
  /-- `1 <= LEN <= CHUNK` while a chunk is held, and the buffer holds it (R22, R23, R122, R145) -/
  chunkHeld : s.phase.holdsChunk = true →
    1 ≤ s.len.toNat ∧ s.len.toNat ≤ s.chunk.toNat ∧ s.len.toNat ≤ s.buf.length
  /-- a run has its stream pair bound (R141, R216) -/
  boundInRun : s.phase.resting = false → s.binding = .bound
  /-- `LEN = 0` in `DONE` (R144) -/
  doneLen : s.phase = .done → s.len = 0#32
  /-- `OFFSET = 0` in `IDLE` (R41, R155) -/
  idleOffset : s.phase = .idle → s.offset = 0#64
  /-- `OFFSET = 0` and `LEN = 0` after a ConfigError (R153, R186) -/
  configOffset : s.errkind = .configError → s.offset = 0#64 ∧ s.len = 0#32

/-- Reads and writes taking turns, the first a read if `wantsRead` (R60). -/
def callsAlternate : Bool → List PortCall → Bool
  | _, [] => true
  | true, .srcRead _ _ :: rest => callsAlternate false rest
  | false, .sinkWrite _ :: rest => callsAlternate true rest
  | true, .sinkWrite _ :: _ => false
  | false, .srcRead _ _ :: _ => false

/-- The order of port calls of a run and where the sequencer stands in it (R60, R61). -/
structure State.PortOrder (s : State) : Prop where
  /-- SrcRead and SinkWrite in turn, a SrcRead first (R60) -/
  alternate : callsAlternate true s.portLog = true
  /-- a run begins with no call made (R142) -/
  initFresh : s.phase = .init → s.portLog = []
  /-- so does a bound stream pair whose run has not been accepted -/
  boundFresh : s.phase.resting = true → s.binding = .bound → s.portLog = []
  /-- a read is issued only when every chunk read has been written (R61) -/
  readTurn : s.phase = .read ∨ s.phase = .adv → s.portLog.length % 2 = 0
  /-- one chunk has been read and not yet written (R61) -/
  writeTurn : s.phase = .mask ∨ s.phase = .write → s.portLog.length % 2 = 1

/-- The bytes the answered reads of a record have delivered. -/
def readBytes (log : List PortCall) : List Byte :=
  log.flatMap fun c =>
    match c with
    | .srcRead _ got => got
    | .sinkWrite _ => []

/-- The bytes the answered writes of a record have offered. -/
def writtenBytes (log : List PortCall) : List Byte :=
  log.flatMap fun c =>
    match c with
    | .srcRead _ _ => []
    | .sinkWrite offered => offered

/-- What a run has offered to its sink is what it has got from its source, masked from position 0, up to the chunk in the
buffer; and `OFFSET` counts it (R2, R21, R149). -/
structure State.MaskedStream (s : State) : Prop where
  atRead : s.phase = .read →
    writtenBytes s.portLog = maskbuf 0#64 (readBytes s.portLog) ∧
    s.offset = BitVec.ofNat 64 (writtenBytes s.portLog).length
  atMask : s.phase = .mask →
    writtenBytes s.portLog ++ maskbuf s.offset (bufChunk s) = maskbuf 0#64 (readBytes s.portLog) ∧
    s.offset = BitVec.ofNat 64 (writtenBytes s.portLog).length
  atWrite : s.phase = .write →
    writtenBytes s.portLog ++ bufChunk s = maskbuf 0#64 (readBytes s.portLog) ∧
    s.offset = BitVec.ofNat 64 (writtenBytes s.portLog).length
  atAdv : s.phase = .adv →
    writtenBytes s.portLog = maskbuf 0#64 (readBytes s.portLog) ∧
    s.offset + zext64 s.len = BitVec.ofNat 64 (writtenBytes s.portLog).length

/-- The first resting state within `k` steps; none if there is none (R158). -/
def runToRest : Nat → State → Option State
  | 0, s => if s.phase.resting then some s else none
  | k + 1, s =>
    if s.phase.resting then some s
    else
      match step s with
      | .next u => runToRest k u
      | .fault _ => none
      | .refused _ => none

/-- The run in progress at `s` ends in the resting state `t` (R158). -/
def RunEnds (s t : State) : Prop := ∃ k, runToRest k s = some t

/-- The host's XFORM is accepted at `s`, which then stands at `s1`, and the run ends at `t` with no reset on the way. -/
structure Transforms (s s1 t : State) : Prop where
  accepted : exec .xform s = .next s1
  noReset : true ∉ s.resetLine
  ended : RunEnds s1 t

/-- The coming answers of the source port hold no failure and at least `n` deliveries (R195, first premise; R67). -/
def srcKeepsAnswering (n : Nat) (as : List SrcAnswer) : Prop :=
  (∀ a ∈ as, ∀ code, a ≠ .fail code) ∧
  n ≤ (as.filter fun a => match a with | .deliver _ => true | .wait => false | .fail _ => false).length

/-- The coming answers of the sink port hold no failure and at least `n` acceptances. -/
def snkKeepsAnswering (n : Nat) (as : List SnkAnswer) : Prop :=
  (∀ a ∈ as, ∀ code j, a ≠ .fail code j) ∧
  n ≤ (as.filter fun a => match a with | .ok => true | .wait => false | .fail _ _ => false).length

end Sys2Proof.Machine
end

