-- ==== Sys2Proof/Certificates/Slice0/Obligations.lean ====
section
/-! DEFINITION. The statements for the provers, each from the numbered rules of spec/. Titles, texts and cites stand in
OBLIGATIONS.json under the same names. -/

open Sys2Proof Sys2Proof.Machine

/-! The keystream and masking, for every key table. -/

/-- R102, in part marked [derived] by the spec: at `WRAP = 32768` the outer modulus is redundant, the index is the position's low seven bits, and the equivalence
fails at 32767. -/
def Obligations.KidxIsLowSevenBits : Prop :=
  (∀ p : Nat, (kidx p).val = p % 128) ∧
  (∀ p : Position, p.toNat % Config.wrap = (p.extractLsb' 0 15).toNat) ∧
  (∀ p : Position, (kidx p.toNat).val = (p.extractLsb' 0 7).toNat) ∧
  (∃ p : Nat, p % 32767 % 128 ≠ p % 128)

/-- R103, marked [derived] by the spec: period 128, also across the wrap of the 64-bit counter. -/
def Obligations.KeystreamPeriod : Prop :=
  ∀ table : Fin Config.tableLen → Byte,
    (∀ p : Nat, maskBy table p = maskBy table (p + 128)) ∧
    (∀ p : Position, maskBy table (p + 128#64).toNat = maskBy table p.toNat) ∧
    (∀ a b : Nat, maskBy table ((a + b) % 2 ^ 64) = maskBy table (a + b))

/-- R10, R101: the three table bytes the spec fixes, and the spec's worked examples of `mask`. -/
def Obligations.FixedTableBytes : Prop :=
  mask 0 = 0xC3#8 ∧ mask 1 = 0x4A#8 ∧ mask 2 = 0xD6#8 ∧ mask 130 = 0xD6#8 ∧
  maskbuf 0#64 [0x00#8, 0x01#8, 0x02#8] = [0xC3#8, 0x4B#8, 0xD4#8]

/-- R121, the period marked [derived] by the spec: `xorb` is self-inverse, a bijection at each position, of period 128, and bitwise. -/
def Obligations.XorbLaws : Prop :=
  ∀ table : Fin Config.tableLen → Byte,
    (∀ b p, xorbBy table (xorbBy table b p) p = b) ∧
    (∀ p, Function.Bijective fun b => xorbBy table b p) ∧
    (∀ b p, xorbBy table b p = xorbBy table b (p + 128)) ∧
    (∀ b p k, (xorbBy table b p).getLsbD k = (b.getLsbD k ^^ (maskBy table p).getLsbD k))

/-- R127, marked [derived] by the spec: splitting, self-inverse, period, length and locality of `maskbuf`. -/
def Obligations.MaskbufLaws : Prop :=
  ∀ table : Fin Config.tableLen → Byte,
    (∀ o as bs, maskbufBy table o (as ++ bs) =
      maskbufBy table o as ++ maskbufBy table (o + BitVec.ofNat 64 as.length) bs) ∧
    (∀ o bs, maskbufBy table o (maskbufBy table o bs) = bs) ∧
    (∀ o bs, maskbufBy table (o + 128#64) bs = maskbufBy table o bs) ∧
    (∀ o bs, (maskbufBy table o bs).length = bs.length) ∧
    (∀ (o : Position) (bs : List Byte) (i : Nat), (maskbufBy table o bs)[i]? =
      bs[i]?.map fun b => xorbBy table b (o + BitVec.ofNat 64 i).toNat)

/-! Encodings. -/

/-- R82: two words are commands and every other one is reserved. -/
def Obligations.CommandDecoding : Prop :=
  ∀ v : Word, decodeCmd v =
    if v = 0x00000001#32 then .command .xform
    else if v = 0x00000002#32 then .command .maskq
    else .reserved v

/-- Decoding undoes encoding, and every encoded thing that decodes to an instruction is that instruction's encoding. -/
def Obligations.DecodeEncodeAgree : Prop :=
  (∀ i : Instr, i.wellFormed = true ∧ decode (encode i) = .command i) ∧
  (∀ (c : Code) (i : Instr), decode c = .command i → c = encode i) ∧
  (∀ c : Code, c.wellFormed = true ↔ ∃ i, decode c = .command i)

/-- R84, R92: the words of spec/opcode_table.json decode to their rows. -/
def Obligations.TableWordsDecode : Prop :=
  decodeTableWord 32 0x00000001 = some .xform ∧ decodeTableWord 32 0x00000002 = some .maskq ∧
  decodeTableWord 8 0 = some .idle ∧ decodeTableWord 8 1 = some .init ∧
  decodeTableWord 8 2 = some .read ∧ decodeTableWord 8 3 = some .mask ∧
  decodeTableWord 8 4 = some .write ∧ decodeTableWord 8 5 = some .adv ∧
  decodeTableWord 8 6 = some .done ∧ decodeTableWord 8 7 = some .fail

/-! The step. -/

/-- A step runs the decoded instruction: `PHASE` names it in a running phase, and in a resting phase with no host move to
make; a command word the host writes to `CMD` names it in a resting phase, the host's move being used up. The reset input's
level for this boundary is used up too (log 4). -/
def Obligations.StepRunsDecodedInstruction : Prop :=
  (∀ s : State, s.resetLine.head? ≠ some true → (s.phase.resting = true → s.script = []) →
    step s = exec (decodePhase (phaseCode s.phase)) { s with resetLine := s.resetLine.tail }) ∧
  (∀ (s : State) (v : Word) (rest : List HostMove) (i : Instr), s.resetLine.head? ≠ some true →
    s.phase.resting = true → s.script = .write 0x00#32 32 v :: rest → decode (.cmd v) = .command i →
    step s = exec i { s with script := rest, resetLine := s.resetLine.tail })

/-- What `withFetchWord` places is what the next step runs: the model's own convention (log 3). -/
def Obligations.PlacedWordRunsNext : Prop :=
  ∀ (s : State) (nbits w : Nat) (i : Instr), decodeTableWord nbits w = some i →
    ∃ u : State, step (s.withFetchWord nbits w) = exec i u ∧ u.src = s.src ∧ u.endless = s.endless ∧ u.snk = s.snk ∧
      u.chunk = s.chunk ∧ u.offset = s.offset ∧ u.len = s.len ∧ u.buf = s.buf ∧ u.pos = s.pos

/-! The commands. -/

/-- R141: acceptance of XFORM in a resting phase with a bound pair clears the error fields and enters INIT. -/
def Obligations.XformAccepted : Prop :=
  ∀ s : State, s.phase.resting = true → s.binding = .bound →
    exec .xform s = .next { s with errkind := .none, errsite := 0#1, iocode := 0#32, phase := .init }

/-- R216, R83, U7, U10 (logs 15, 22): where XFORM and MASKQ are refused. -/
def Obligations.CommandsRefused : Prop :=
  (∀ s : State, s.phase.resting = true → s.binding = .unbound → exec .xform s = .refused .nothingBound) ∧
  (∀ s : State, s.phase.resting = true → s.binding = .aliased → exec .xform s = .refused .streamsAlias) ∧
  (∀ s : State, s.phase.resting = false →
    exec .xform s = .refused .commandInRun ∧ exec .maskq s = .refused .commandInRun)

/-- R104: MASKQ, command word 2, puts `mask(POS)` into MASKVAL and changes nothing else. -/
def Obligations.MaskqResult : Prop :=
  decode (.cmd 0x00000002#32) = .command .maskq ∧
  ∀ s : State, s.phase.resting = true →
    exec .maskq s = .next { s with maskval := mask s.pos.toNat }

/-- R87: a reserved word written to CMD in a resting phase raises BadCommand and changes nothing else of the block. -/
def Obligations.ReservedWordRaisesBadCommand : Prop :=
  ∀ (s : State) (v : Word) (rest : List HostMove), s.resetLine.head? ≠ some true → s.phase.resting = true →
    s.script = .write 0x00#32 32 v :: rest → v ≠ 0x00000001#32 → v ≠ 0x00000002#32 →
    step s = .next { s with
      script := rest, resetLine := s.resetLine.tail
      errkind := .badCommand, errsite := 0#1, iocode := 0#32, phase := .fail }

/-! The micro-operations. -/

/-- R142: INIT, PHASE code 1, both cases. What becomes of the stream pair's binding is left to `BindingLastsOneRun`. -/
def Obligations.InitResult : Prop :=
  decode (.phase 1#3) = .command .init ∧
  (∀ s : State, s.chunk ≠ 0#32 →
    exec .init s = .next { s with offset := 0#64, len := 0#32, phase := .read }) ∧
  (∀ s : State, s.chunk = 0#32 → ∃ t, exec .init s = .next t ∧
    t = { s with
      offset := 0#64, len := 0#32, errkind := .configError, errsite := 0#1, iocode := 0#32, phase := .fail
      binding := t.binding })

/-- R143: READ, PHASE code 2, by the source port's answer: bytes while some remain (as many as the port offers, if R53 admits that many),
nothing when none remain, a failure. After a failure `LEN`, `BUF` and `src` are unspecified and nothing is said of them. The
environment's own fields are left to `PortCallsRecorded` and `BindingLastsOneRun`. -/
def Obligations.ReadResult : Prop :=
  decode (.phase 2#3) = .command .read ∧
  (∀ (s : State) (k : Nat), nextSrcAnswer s = .deliver k → s.chunk ≠ 0#32 → srcHeld s.chunk s ≠ [] →
    ∃ t n, exec .read s = .next t ∧
      1 ≤ n ∧ n ≤ s.chunk.toNat ∧ n ≤ (srcHeld s.chunk s).length ∧
      (1 ≤ k → k ≤ s.chunk.toNat → k ≤ (srcHeld s.chunk s).length → n = k) ∧
      t = { s with
        buf := (srcHeld s.chunk s).take n ++ s.buf.drop n, len := BitVec.ofNat 32 n
        src := (srcHeld s.chunk s).drop n, phase := .mask
        srcAnswers := t.srcAnswers, portLog := t.portLog, draws := t.draws }) ∧
  (∀ (s : State) (k : Nat), nextSrcAnswer s = .deliver k → srcHeld s.chunk s = [] →
    ∃ t, exec .read s = .next t ∧
      t = { s with
        len := 0#32, phase := .done
        srcAnswers := t.srcAnswers, portLog := t.portLog, draws := t.draws, binding := t.binding }) ∧
  (∀ (s : State) (code : Word), nextSrcAnswer s = .fail code →
    ∃ t, exec .read s = .next t ∧
      t = { s with
        errkind := .ioFailure, errsite := 0#1, iocode := code, phase := .fail
        len := t.len, buf := t.buf, bufGen := t.bufGen, src := t.src, endless := t.endless
        srcAnswers := t.srcAnswers, portLog := t.portLog, draws := t.draws, binding := t.binding })

/-- R53: whatever the source port offers, an answer that is no failure is a front part of what the source holds, empty only
if nothing remains, never longer than asked, and every admissible length is possible. What it holds is `src`, and for an
endless source (R195, log 13) at least as much as is asked, beginning with `src`. -/
def Obligations.SourcePortContract : Prop :=
  (∀ (s : State) (n : Word) (bs : List Byte), n ≠ 0#32 → srcReply n s = .ok bs →
    bs ++ srcLeft n s = srcHeld n s ∧ bs.length ≤ n.toNat ∧ (bs = [] ↔ srcHeld n s = [])) ∧
  (∀ (s : State) (n : Word) (k : Nat), 1 ≤ k → k ≤ n.toNat → k ≤ (srcHeld n s).length →
    srcReply n { s with srcAnswers := [.deliver k] } = .ok ((srcHeld n s).take k)) ∧
  (∀ (s : State) (n : Word), s.endless = false → srcHeld n s = s.src) ∧
  (∀ (s : State) (n : Word), s.endless = true → n.toNat ≤ (srcHeld n s).length ∧ ∃ more, srcHeld n s = s.src ++ more) ∧
  (∀ (s : State) (n code : Word), srcReply n { s with srcAnswers := [.fail code] } = .failed code)

/-- R122: MASK, PHASE code 3, byte by byte, and what it leaves unchanged: everything but `BUF[0 .. LEN-1]` and `PHASE`. -/
def Obligations.MaskResult : Prop :=
  decode (.phase 3#3) = .command .mask ∧
  ∀ s : State, ∃ t, exec .mask s = .next t ∧
    (∀ i, i < s.len.toNat → bufByte t i = bufByte s i ^^^ mask (s.offset + zext64 (BitVec.ofNat 32 i)).toNat) ∧
    (∀ i, s.len.toNat ≤ i → bufByte t i = bufByte s i) ∧
    bufChunk t = maskbuf s.offset (bufChunk s) ∧
    t = { s with buf := t.buf, phase := .write }

/-- R145: WRITE, PHASE code 4, by the sink port's answer: exactly the first `LEN` bytes of `BUF` go to the sink, or a front part of them
and an IOFailure at the write site. The environment's own fields are left to `PortCallsRecorded` and
`BindingLastsOneRun`. -/
def Obligations.WriteResult : Prop :=
  decode (.phase 4#3) = .command .write ∧
  (∀ s : State, (bufChunk s).length = s.len.toNat ∧ ∀ i, i < s.len.toNat → (bufChunk s)[i]? = some (bufByte s i)) ∧
  (∀ s : State, nextSnkAnswer s = .ok →
    ∃ t, exec .write s = .next t ∧
      t = { s with
        snk := s.snk ++ bufChunk s, phase := .adv
        snkAnswers := t.snkAnswers, portLog := t.portLog, draws := t.draws }) ∧
  (∀ (s : State) (code : Word) (j : Nat), nextSnkAnswer s = .fail code j →
    ∃ t, exec .write s = .next t ∧
      t = { s with
        snk := s.snk ++ (bufChunk s).take j
        errkind := .ioFailure, errsite := 1#1, iocode := code, phase := .fail
        snkAnswers := t.snkAnswers, portLog := t.portLog, draws := t.draws, binding := t.binding })

/-- The model's own record of port calls and use of the environment's answers (logs 5, 6, 18): an answered call is logged
once, an unanswered one is not, and each step of a port uses up one answer. -/
def Obligations.PortCallsRecorded : Prop :=
  (∀ s : State, ∃ t, exec .read s = .next t ∧ t.srcAnswers = s.srcAnswers.tail ∧ s.draws < t.draws ∧
    t.portLog = s.portLog ++
      match srcReply s.chunk s with
      | .waiting => []
      | .ok bs => [.srcRead s.chunk bs]
      | .failed _ => [.srcRead s.chunk []]) ∧
  (∀ s : State, ∃ t, exec .write s = .next t ∧ t.snkAnswers = s.snkAnswers.tail ∧ s.draws < t.draws ∧
    t.portLog = s.portLog ++
      match snkReply s with
      | .waiting => []
      | .ok => [.sinkWrite (bufChunk s)]
      | .failed _ => [.sinkWrite (bufChunk s)])

/-- R195 as log 7 reads it: a port that has not answered leaves the step not taken; only the environment's draws move
on. -/
def Obligations.UnansweredPortWaits : Prop :=
  (∀ s : State, nextSrcAnswer s = .wait →
    exec .read s = .next { s with srcAnswers := s.srcAnswers.tail, draws := s.draws + 1 }) ∧
  (∀ s : State, nextSnkAnswer s = .wait →
    exec .write s = .next { s with snkAnswers := s.snkAnswers.tail, draws := s.draws + 1 })

/-- R146: ADV, PHASE code 5, advances `OFFSET` by `LEN`, modulo 2^64. -/
def Obligations.AdvResult : Prop :=
  decode (.phase 5#3) = .command .adv ∧
  ∀ s : State, exec .adv s =
    .next { s with offset := BitVec.ofNat 64 (s.offset.toNat + s.len.toNat), phase := .read }

/-- R155, R144, R147: the sequencer has no step in the resting phases. -/
def Obligations.RestingPhasesRest : Prop :=
  ∀ s : State, exec .idle s = .next s ∧ exec .done s = .next s ∧ exec .fail s = .next s

/-! Failures and the status word. -/

/-- R185: the failure entry, for each kind with what it records. -/
def Obligations.RaiseEntry : Prop :=
  ∀ (s : State) (code : Word),
    raise .config s = { s with errkind := .configError, errsite := 0#1, iocode := 0#32, phase := .fail } ∧
    raise .badCommand s = { s with errkind := .badCommand, errsite := 0#1, iocode := 0#32, phase := .fail } ∧
    raise (.readFailed code) s = { s with errkind := .ioFailure, errsite := 0#1, iocode := code, phase := .fail } ∧
    raise (.writeFailed code) s = { s with errkind := .ioFailure, errsite := 1#1, iocode := code, phase := .fail }

/-- R31: the STATUS word as a number, in every state. -/
def Obligations.StatusWordValue : Prop :=
  ∀ s : State, (statusWord s).toNat =
    (phaseCode s.phase).toNat + 16 * (errkindCode s.errkind).toNat + 128 * s.errsite.toNat

/-- R31, R26, R27, marked [derived] by the spec: the six values of STATUS a host can see in a resting phase. -/
def Obligations.StatusInRest : Prop :=
  ∀ s : State, s.Inv → s.phase.resting = true →
    (s.phase = .idle → statusWord s = 0x00#32) ∧
    (s.phase = .done → statusWord s = 0x06#32) ∧
    (s.phase = .fail → s.errkind = .configError → statusWord s = 0x17#32) ∧
    (s.phase = .fail → s.errkind = .ioFailure → s.errsite = 0#1 → statusWord s = 0x27#32) ∧
    (s.phase = .fail → s.errkind = .ioFailure → s.errsite = 1#1 → statusWord s = 0xA7#32) ∧
    (s.phase = .fail → s.errkind = .badCommand → statusWord s = 0x37#32) ∧
    (s.phase = .fail → s.errkind ≠ .none)

/-! The register bank and the host. -/

/-- R30, R31 to R37: a read of each offset returns the value of the map and changes no other state. -/
def Obligations.RegisterReads : Prop :=
  ∀ (s : State) (off : Word) (rest : List HostMove), s.resetLine.head? ≠ some true → s.phase.resting = true →
    s.script = .read off 32 :: rest → off.toNat % 4 = 0 → off.toNat ≤ 0xFC →
    step s = .next { s with
      script := rest, resetLine := s.resetLine.tail
      reads := s.reads ++
        [if off = 0x04#32 then statusWord s
         else if off = 0x08#32 then s.chunk
         else if off = 0x0C#32 then s.iocode
         else if off = 0x10#32 then s.offset.setWidth 32
         else if off = 0x14#32 then (s.offset >>> 32).setWidth 32
         else if off = 0x18#32 then s.pos.setWidth 32
         else if off = 0x1C#32 then (s.pos >>> 32).setWidth 32
         else if off = 0x20#32 then s.maskval.setWidth 32
         else 0#32] }

/-- R33, R35, R37: a write to CHUNK or to a half of POS sets it and nothing else; a write to any other offset but CMD
changes nothing. -/
def Obligations.RegisterWrites : Prop :=
  ∀ (s : State) (off v : Word) (rest : List HostMove), s.resetLine.head? ≠ some true → s.phase.resting = true →
    s.script = .write off 32 v :: rest → off.toNat % 4 = 0 → off.toNat ≤ 0xFC → off ≠ 0x00#32 →
    ∃ t, step s = .next t ∧
      t = { s with script := rest, resetLine := s.resetLine.tail, chunk := t.chunk, pos := t.pos } ∧
      (t.chunk = if off = 0x08#32 then v else s.chunk) ∧
      (t.pos.setWidth 32 = if off = 0x18#32 then v else s.pos.setWidth 32) ∧
      ((t.pos >>> 32).setWidth 32 = if off = 0x1C#32 then v else (s.pos >>> 32).setWidth 32)

/-- R37: an access that is misaligned, not 32 bits wide or outside the window is refused. -/
def Obligations.NonAccessRefused : Prop :=
  ∀ (s : State) (off v : Word) (width : Nat) (rest : List HostMove), s.resetLine.head? ≠ some true →
    s.phase.resting = true → Access.wellFormed ⟨off, width⟩ = false →
    (s.script = .write off width v :: rest → step s = .refused .notAnAccess) ∧
    (s.script = .read off width :: rest → step s = .refused .notAnAccess)

/-- R216: a bind in a resting phase connects the streams and touches no register. That it starts a fresh record of calls is
the model's own (log 18), and so is that it replaces a binding no run has used (log 25). -/
def Obligations.BindConnectsStreams : Prop :=
  ∀ (s : State) (src snk : List Byte) (rest : List HostMove), s.resetLine.head? ≠ some true →
    s.phase.resting = true →
    (s.script = .bind src snk :: rest → step s = .next { s with
      script := rest, resetLine := s.resetLine.tail, binding := .bound, src := src, endless := false, snk := snk
      portLog := [] }) ∧
    (s.script = .bindEndless src snk :: rest → step s = .next { s with
      script := rest, resetLine := s.resetLine.tail, binding := .bound, src := src, endless := true, snk := snk
      portLog := [] })

/-- R216, R218 as log 14 reads them: a binding lasts to the end of its run, a reset ends it, and otherwise only the host's
bind changes it. -/
def Obligations.BindingLastsOneRun : Prop :=
  (∀ s t : State, s.resetLine.head? ≠ some true → step s = .next t → s.phase.resting = false →
    t.binding = if t.phase.resting then .unbound else s.binding) ∧
  (∀ s t : State, s.resetLine.head? ≠ some true → step s = .next t → s.phase.resting = true →
    t.binding = match s.script.head? with
      | some .reset => .unbound
      | some (.bind _ _) => .bound
      | some (.bindEndless _ _) => .bound
      | some (.bindAliased _) => .aliased
      | some (.write _ _ _) => s.binding
      | some (.read _ _) => s.binding
      | none => s.binding) ∧
  (∀ s t : State, s.resetLine.head? = some true → step s = .next t → t.binding = .unbound)

/-- R217: in a running phase the host makes no move; a step leaves its script, its registers and its reads alone, and is
never refused. -/
def Obligations.HostBlockedInRun : Prop :=
  ∀ s : State, s.phase.resting = false →
    ∃ t, step s = .next t ∧ t.script = s.script ∧ t.reads = s.reads ∧
      t.resetLine = s.resetLine.tail ∧
      (s.resetLine.head? ≠ some true → t.chunk = s.chunk ∧ t.pos = s.pos ∧ t.maskval = s.maskval)

/-! Reset. -/

/-- R41: the values the spec states for reset. -/
def Obligations.ResetValues : Prop :=
  State.reset.phase = .idle ∧ State.reset.offset = 0#64 ∧ State.reset.chunk = 0x00100000#32 ∧
  State.reset.errkind = .none ∧ State.reset.errsite = 0#1 ∧ State.reset.iocode = 0#32 ∧ State.reset.pos = 0#64

/-- R210: reset, at any step boundary in any phase and as a line of the host's script: the values of R41, and the streams
are not touched. -/
def Obligations.ResetInput : Prop :=
  ∀ s : State, s.resetLine.head? = some true ∨ (s.phase.resting = true ∧ s.script.head? = some .reset) →
    ∃ t, step s = .next t ∧
      t.phase = .idle ∧ t.offset = 0#64 ∧ t.chunk = 0x00100000#32 ∧ t.errkind = .none ∧ t.errsite = 0#1 ∧
      t.iocode = 0#32 ∧ t.pos = 0#64 ∧ t.src = s.src ∧ t.endless = s.endless ∧ t.snk = s.snk

/-- R211: in a resting phase the block does nothing until the host moves or reset comes. That `State.reset` is such a state,
with no move of the host and no level of the reset input listed, is the model's choice (log 11). -/
def Obligations.RestsUntilHostMoves : Prop :=
  step State.reset = .next State.reset ∧
  ∀ s : State, s.phase.resting = true → s.script = [] → s.resetLine.head? ≠ some true →
    step s = .next { s with resetLine := s.resetLine.tail }

/-! Whole-machine rules. -/

/-- R148: the whole transition table of PHASE. The model's own are the steps that keep it while a port has not answered
(log 7, for R195) and while the host has no move to make (log 1), and the binds of an endless source and of aliasing streams
(logs 13, 15). -/
def Obligations.PhaseTransitions : Prop :=
  ∀ s t : State, step s = .next t →
    t.phase =
      if s.resetLine.head? = some true then .idle
      else if s.phase.resting = true then
        match s.script.head? with
        | some .reset => .idle
        | some (.write off _ v) =>
          if off = 0x00#32 then
            if v = 0x00000001#32 then .init else if v = 0x00000002#32 then s.phase else .fail
          else s.phase
        | some (.read _ _) => s.phase
        | some (.bind _ _) => s.phase
        | some (.bindEndless _ _) => s.phase
        | some (.bindAliased _) => s.phase
        | none => s.phase
      else
        match s.phase with
        | .init => if s.chunk = 0#32 then .fail else .read
        | .read =>
          match srcReply s.chunk s with
          | .waiting => .read
          | .failed _ => .fail
          | .ok [] => .done
          | .ok (_ :: _) => .mask
        | .mask => .write
        | .write =>
          match snkReply s with
          | .waiting => .write
          | .ok => .adv
          | .failed _ => .fail
        | .adv => .read
        | .idle => .idle
        | .done => .done
        | .fail => .fail

/-- R21, R24, R29, R39: who writes OFFSET, CHUNK, POS, MASKVAL and the streams; all else but reset leaves them alone. -/
def Obligations.RegisterWriters : Prop :=
  ∀ s t : State, s.resetLine.head? ≠ some true → s.script.head? ≠ some .reset → step s = .next t →
    (t.offset ≠ s.offset → s.phase = .init ∨ s.phase = .adv) ∧
    (t.chunk ≠ s.chunk → s.phase.resting = true ∧ ∃ v, s.script.head? = some (.write 0x08#32 32 v)) ∧
    (t.pos ≠ s.pos → s.phase.resting = true ∧ ∃ off v, s.script.head? = some (.write off 32 v) ∧
      (off = 0x18#32 ∨ off = 0x1C#32)) ∧
    (t.maskval ≠ s.maskval →
      s.phase.resting = true ∧ s.script.head? = some (.write 0x00#32 32 0x00000002#32)) ∧
    (t.src ≠ s.src ∨ t.endless ≠ s.endless → s.phase = .read ∨
      (s.phase.resting = true ∧ ∃ a b, s.script.head? = some (.bind a b) ∨ s.script.head? = some (.bindEndless a b) ∨
        s.script.head? = some (.bindAliased a))) ∧
    (t.snk ≠ s.snk → s.phase = .write ∨
      (s.phase.resting = true ∧ ∃ a b, s.script.head? = some (.bind a b) ∨ s.script.head? = some (.bindEndless a b) ∨
        s.script.head? = some (.bindAliased a)))

/-- R189: the error fields are sticky: only acceptance of XFORM, a new failure or reset changes them. -/
def Obligations.ErrorFieldsSticky : Prop :=
  ∀ s t : State, s.resetLine.head? ≠ some true → s.script.head? ≠ some .reset → step s = .next t →
    (t.errkind = s.errkind ∧ t.errsite = s.errsite ∧ t.iocode = s.iocode) ∨
    (s.phase = .init ∧ s.chunk = 0#32) ∨
    (s.phase = .read ∧ ∃ code, srcReply s.chunk s = .failed code) ∨
    (s.phase = .write ∧ ∃ code, snkReply s = .failed code) ∨
    (s.phase.resting = true ∧ ∃ v, s.script.head? = some (.write 0x00#32 32 v) ∧ v ≠ 0x00000002#32)

/-- What each instruction leaves alone: the host's side always, and every register, stream and record but the ones its rule
writes (R104, R122, R141, R142, R143, R145, R146). -/
def Obligations.ExecFrame : Prop :=
  ∀ (i : Instr) (s t : State), exec i s = .next t →
    t.script = s.script ∧ t.reads = s.reads ∧ t.resetLine = s.resetLine ∧ t.chunk = s.chunk ∧ t.pos = s.pos ∧
    (i ≠ .maskq → t.maskval = s.maskval) ∧
    (i ≠ .init → i ≠ .adv → t.offset = s.offset) ∧
    (i ≠ .read → t.src = s.src ∧ t.endless = s.endless ∧ t.srcAnswers = s.srcAnswers) ∧
    (i ≠ .write → t.snk = s.snk ∧ t.snkAnswers = s.snkAnswers) ∧
    (i ≠ .init → i ≠ .read → t.len = s.len) ∧
    (i ≠ .read → i ≠ .mask → t.buf = s.buf ∧ t.bufGen = s.bufGen) ∧
    (i ≠ .read → i ≠ .write → t.portLog = s.portLog ∧ t.draws = s.draws) ∧
    (i ≠ .init → i ≠ .read → i ≠ .write → t.binding = s.binding) ∧
    (i ≠ .xform → i ≠ .init → i ≠ .read → i ≠ .write →
      t.errkind = s.errkind ∧ t.errsite = s.errsite ∧ t.iocode = s.iocode) ∧
    (i = .idle ∨ i = .done ∨ i = .fail ∨ i = .maskq → t.phase = s.phase)

/-! Invariants. -/

/-- The invariant holds at reset. -/
def Obligations.InvAtReset : Prop := State.reset.Inv

/-- Every step keeps the invariant. -/
def Obligations.InvKept : Prop :=
  ∀ s t : State, s.Inv → step s = .next t → t.Inv

/-- The order of port calls holds at reset, where the model's record of calls is empty and nothing is bound (log 11). -/
def Obligations.PortOrderAtReset : Prop := State.reset.PortOrder

/-- R60, R61: every step keeps the order of port calls. -/
def Obligations.PortOrderKept : Prop :=
  ∀ s t : State, s.PortOrder → step s = .next t → t.PortOrder

/-- The masked stream holds at reset. -/
def Obligations.MaskedStreamAtReset : Prop := State.reset.MaskedStream

/-- R2, R21, R126, R127: every step keeps "what was offered is what was got, masked from position 0". -/
def Obligations.MaskedStreamKept : Prop :=
  ∀ s t : State, s.PortOrder → s.MaskedStream → step s = .next t → t.MaskedStream

/-! Runs. -/

/-- R149, marked [derived] by the spec: a run that ends in DONE had a source that ends, and has masked the whole input from position 0, whatever the
ports drew. -/
def Obligations.RunResult : Prop :=
  ∀ s s1 t : State, Transforms s s1 t → s.PortOrder → t.phase = .done →
    s.endless = false ∧
    t.snk = s.snk ++ maskbuf 0#64 s.src ∧
    t.offset = BitVec.ofNat 64 s.src.length ∧
    t.errkind = .none ∧ t.errsite = 0#1 ∧ t.iocode = 0#32 ∧ t.len = 0#32 ∧ t.src = [] ∧
    ∃ m, (t.portLog.filter fun c => match c with | .srcRead _ _ => true | .sinkWrite _ => false).length = m + 1 ∧
      (t.portLog.filter fun c => match c with | .srcRead _ _ => false | .sinkWrite _ => true).length = m

/-- R153 and R186, marked [derived] by the spec: what a run that ends in FAIL leaves, by the kind of failure. The failing call
is the last one of the model's own record (log 18), which ties the failing chunk `last` down; it stays in `BUF`, masked. What
is left in the source is said of one that ends. -/
def Obligations.FailedRunResult : Prop :=
  ∀ s s1 t : State, Transforms s s1 t → s.PortOrder → t.phase = .fail →
    (t.errkind = .configError ∧ s.chunk = 0#32 ∧ t.src = s.src ∧ t.endless = s.endless ∧ t.snk = s.snk ∧ t.offset = 0#64 ∧
      t.portLog = []) ∨
    (t.errkind = .ioFailure ∧ t.errsite = 0#1 ∧
      (∃ pre, t.portLog = pre ++ [.srcRead s.chunk []]) ∧
      (s.endless = false → ∃ rest, s.src = readBytes t.portLog ++ rest) ∧
      t.snk = s.snk ++ maskbuf 0#64 (readBytes t.portLog) ∧
      t.offset = BitVec.ofNat 64 (readBytes t.portLog).length) ∨
    (t.errkind = .ioFailure ∧ t.errsite = 1#1 ∧
      ∃ (pre : List PortCall) (before last : List Byte) (j : Nat),
        t.portLog = pre ++
          [.srcRead s.chunk last, .sinkWrite (maskbuf (BitVec.ofNat 64 before.length) last)] ∧
        readBytes pre = before ∧ readBytes t.portLog = before ++ last ∧
        (s.endless = false → s.src = before ++ last ++ t.src) ∧
        1 ≤ last.length ∧ last.length ≤ s.chunk.toNat ∧ j ≤ last.length ∧
        bufChunk t = maskbuf t.offset last ∧
        t.snk = s.snk ++ maskbuf 0#64 before ++
          (maskbuf (BitVec.ofNat 64 before.length) last).take j ∧
        t.offset = BitVec.ofNat 64 before.length)

/-- R150, marked [derived] by the spec: the output does not depend on CHUNK nor on how the source port cut the input. -/
def Obligations.ChunkingInvariance : Prop :=
  ∀ s s1 t s' s1' t' : State, Transforms s s1 t → Transforms s' s1' t' → s.PortOrder → s'.PortOrder →
    t.phase = .done → t'.phase = .done → s.src = s'.src → s.snk = s'.snk →
    t.snk = t'.snk ∧ t.offset = t'.offset

/-- R151, marked [derived] by the spec: transforming the output of a run gives back the input of the run. -/
def Obligations.RoundTrip : Prop :=
  ∀ s s1 t s' s1' t' : State, Transforms s s1 t → Transforms s' s1' t' → s.PortOrder → s'.PortOrder →
    t.phase = .done → t'.phase = .done → s.snk = [] → s'.snk = [] → s'.src = t.snk →
    t'.snk = s.src

/-- R152, marked [derived] by the spec: an empty input gives an empty output with one read and no write, and success. -/
def Obligations.EmptyInput : Prop :=
  ∀ s s1 t : State, Transforms s s1 t → s.PortOrder → s.src = [] → t.phase = .done →
    t.snk = s.snk ∧ t.offset = 0#64 ∧ statusWord t = 0x06#32 ∧ t.portLog = [.srcRead s.chunk []]

/-- R195, R149: a run ends in DONE if CHUNK is not 0, the ports keep answering without a failure and the source is not
endless. Waiting on the way is allowed. -/
def Obligations.RunTerminates : Prop :=
  ∀ s s1 : State, exec .xform s = .next s1 → true ∉ s.resetLine → s.chunk ≠ 0#32 → s.endless = false →
    srcKeepsAnswering (s.src.length + 1) s.srcAnswers → snkKeepsAnswering s.src.length s.snkAnswers →
    ∃ t, RunEnds s1 t ∧ t.phase = .done

/-- R195 (log 13): a run on an endless source never ends in DONE, and goes on for as many steps as the ports keep answering without
a failure. -/
def Obligations.EndlessRunGoesOn : Prop :=
  (∀ s s1 t : State, Transforms s s1 t → s.endless = true → t.phase ≠ .done) ∧
  (∀ (s s1 : State) (k : Nat), exec .xform s = .next s1 → true ∉ s.resetLine → s.chunk ≠ 0#32 → s.endless = true →
    srcKeepsAnswering k s.srcAnswers → snkKeepsAnswering k s.snkAnswers → runToRest k s1 = none)

/-- R42, R198, R219: nothing an earlier run left behind reaches a run: from two states that agree on CHUNK and on the
environment, whatever OFFSET, LEN, BUF, the error fields, POS and MASKVAL hold, XFORM ends in the same outcome. -/
def Obligations.NoLeakBetweenRuns : Prop :=
  ∀ s s' s1 s1' t : State, exec .xform s = .next s1 → exec .xform s' = .next s1' → RunEnds s1 t →
    s'.chunk = s.chunk → s'.src = s.src → s'.endless = s.endless → s'.snk = s.snk → s'.srcAnswers = s.srcAnswers →
    s'.snkAnswers = s.snkAnswers → s'.resetLine = s.resetLine → s'.draws = s.draws → s'.portLog = s.portLog →
    ∃ t', RunEnds s1' t' ∧ t'.phase = t.phase ∧ t'.errkind = t.errkind ∧ t'.errsite = t.errsite ∧
      t'.iocode = t.iocode ∧ t'.offset = t.offset ∧ t'.src = t.src ∧ t'.snk = t.snk ∧ t'.portLog = t.portLog
end

