-- ==== Sys2Proof/Laws/State.lean ====
section
/-! SUPPORT. One lemma per field per update of the state, true by rfl, so that no proof unfolds a record update. -/

namespace Sys2Proof.Machine

@[simp] theorem raise_phase (f : Failure) (s : State) : (raise f s).phase = .fail := rfl
@[simp] theorem raise_offset (f : Failure) (s : State) : (raise f s).offset = s.offset := rfl
@[simp] theorem raise_chunk (f : Failure) (s : State) : (raise f s).chunk = s.chunk := rfl
@[simp] theorem raise_len (f : Failure) (s : State) : (raise f s).len = s.len := rfl
@[simp] theorem raise_buf (f : Failure) (s : State) : (raise f s).buf = s.buf := rfl
@[simp] theorem raise_bufGen (f : Failure) (s : State) : (raise f s).bufGen = s.bufGen := rfl
@[simp] theorem raise_errkind (f : Failure) (s : State) : (raise f s).errkind = failureKind f := rfl
@[simp] theorem raise_errsite (f : Failure) (s : State) : (raise f s).errsite = failureSite f := rfl
@[simp] theorem raise_iocode (f : Failure) (s : State) : (raise f s).iocode = failureCode f := rfl
@[simp] theorem raise_pos (f : Failure) (s : State) : (raise f s).pos = s.pos := rfl
@[simp] theorem raise_maskval (f : Failure) (s : State) : (raise f s).maskval = s.maskval := rfl
@[simp] theorem raise_binding (f : Failure) (s : State) : (raise f s).binding = s.binding := rfl
@[simp] theorem raise_src (f : Failure) (s : State) : (raise f s).src = s.src := rfl
@[simp] theorem raise_endless (f : Failure) (s : State) : (raise f s).endless = s.endless := rfl
@[simp] theorem raise_snk (f : Failure) (s : State) : (raise f s).snk = s.snk := rfl
@[simp] theorem raise_srcAnswers (f : Failure) (s : State) : (raise f s).srcAnswers = s.srcAnswers := rfl
@[simp] theorem raise_snkAnswers (f : Failure) (s : State) : (raise f s).snkAnswers = s.snkAnswers := rfl
@[simp] theorem raise_script (f : Failure) (s : State) : (raise f s).script = s.script := rfl
@[simp] theorem raise_resetLine (f : Failure) (s : State) : (raise f s).resetLine = s.resetLine := rfl
@[simp] theorem raise_reads (f : Failure) (s : State) : (raise f s).reads = s.reads := rfl
@[simp] theorem raise_portLog (f : Failure) (s : State) : (raise f s).portLog = s.portLog := rfl
@[simp] theorem raise_draws (f : Failure) (s : State) : (raise f s).draws = s.draws := rfl

@[simp] theorem clearErrors_phase (s : State) : (clearErrors s).phase = s.phase := rfl
@[simp] theorem clearErrors_offset (s : State) : (clearErrors s).offset = s.offset := rfl
@[simp] theorem clearErrors_chunk (s : State) : (clearErrors s).chunk = s.chunk := rfl
@[simp] theorem clearErrors_len (s : State) : (clearErrors s).len = s.len := rfl
@[simp] theorem clearErrors_buf (s : State) : (clearErrors s).buf = s.buf := rfl
@[simp] theorem clearErrors_bufGen (s : State) : (clearErrors s).bufGen = s.bufGen := rfl
@[simp] theorem clearErrors_errkind (s : State) : (clearErrors s).errkind = .none := rfl
@[simp] theorem clearErrors_errsite (s : State) : (clearErrors s).errsite = 0#1 := rfl
@[simp] theorem clearErrors_iocode (s : State) : (clearErrors s).iocode = 0#32 := rfl
@[simp] theorem clearErrors_pos (s : State) : (clearErrors s).pos = s.pos := rfl
@[simp] theorem clearErrors_maskval (s : State) : (clearErrors s).maskval = s.maskval := rfl
@[simp] theorem clearErrors_binding (s : State) : (clearErrors s).binding = s.binding := rfl
@[simp] theorem clearErrors_src (s : State) : (clearErrors s).src = s.src := rfl
@[simp] theorem clearErrors_endless (s : State) : (clearErrors s).endless = s.endless := rfl
@[simp] theorem clearErrors_snk (s : State) : (clearErrors s).snk = s.snk := rfl
@[simp] theorem clearErrors_srcAnswers (s : State) : (clearErrors s).srcAnswers = s.srcAnswers := rfl
@[simp] theorem clearErrors_snkAnswers (s : State) : (clearErrors s).snkAnswers = s.snkAnswers := rfl
@[simp] theorem clearErrors_script (s : State) : (clearErrors s).script = s.script := rfl
@[simp] theorem clearErrors_resetLine (s : State) : (clearErrors s).resetLine = s.resetLine := rfl
@[simp] theorem clearErrors_reads (s : State) : (clearErrors s).reads = s.reads := rfl
@[simp] theorem clearErrors_portLog (s : State) : (clearErrors s).portLog = s.portLog := rfl
@[simp] theorem clearErrors_draws (s : State) : (clearErrors s).draws = s.draws := rfl

@[simp] theorem release_phase (s : State) : (release s).phase = s.phase := rfl
@[simp] theorem release_offset (s : State) : (release s).offset = s.offset := rfl
@[simp] theorem release_chunk (s : State) : (release s).chunk = s.chunk := rfl
@[simp] theorem release_len (s : State) : (release s).len = s.len := rfl
@[simp] theorem release_buf (s : State) : (release s).buf = s.buf := rfl
@[simp] theorem release_bufGen (s : State) : (release s).bufGen = s.bufGen := rfl
@[simp] theorem release_errkind (s : State) : (release s).errkind = s.errkind := rfl
@[simp] theorem release_errsite (s : State) : (release s).errsite = s.errsite := rfl
@[simp] theorem release_iocode (s : State) : (release s).iocode = s.iocode := rfl
@[simp] theorem release_pos (s : State) : (release s).pos = s.pos := rfl
@[simp] theorem release_maskval (s : State) : (release s).maskval = s.maskval := rfl
@[simp] theorem release_binding (s : State) : (release s).binding = .unbound := rfl
@[simp] theorem release_src (s : State) : (release s).src = s.src := rfl
@[simp] theorem release_endless (s : State) : (release s).endless = s.endless := rfl
@[simp] theorem release_snk (s : State) : (release s).snk = s.snk := rfl
@[simp] theorem release_srcAnswers (s : State) : (release s).srcAnswers = s.srcAnswers := rfl
@[simp] theorem release_snkAnswers (s : State) : (release s).snkAnswers = s.snkAnswers := rfl
@[simp] theorem release_script (s : State) : (release s).script = s.script := rfl
@[simp] theorem release_resetLine (s : State) : (release s).resetLine = s.resetLine := rfl
@[simp] theorem release_reads (s : State) : (release s).reads = s.reads := rfl
@[simp] theorem release_portLog (s : State) : (release s).portLog = s.portLog := rfl
@[simp] theorem release_draws (s : State) : (release s).draws = s.draws := rfl

@[simp] theorem afterSrcRead_phase (n : Word) (s : State) : (afterSrcRead n s).phase = s.phase := rfl
@[simp] theorem afterSrcRead_offset (n : Word) (s : State) : (afterSrcRead n s).offset = s.offset := rfl
@[simp] theorem afterSrcRead_chunk (n : Word) (s : State) : (afterSrcRead n s).chunk = s.chunk := rfl
@[simp] theorem afterSrcRead_len (n : Word) (s : State) : (afterSrcRead n s).len = s.len := rfl
@[simp] theorem afterSrcRead_buf (n : Word) (s : State) : (afterSrcRead n s).buf = s.buf := rfl
@[simp] theorem afterSrcRead_bufGen (n : Word) (s : State) : (afterSrcRead n s).bufGen = s.bufGen := rfl
@[simp] theorem afterSrcRead_errkind (n : Word) (s : State) : (afterSrcRead n s).errkind = s.errkind := rfl
@[simp] theorem afterSrcRead_errsite (n : Word) (s : State) : (afterSrcRead n s).errsite = s.errsite := rfl
@[simp] theorem afterSrcRead_iocode (n : Word) (s : State) : (afterSrcRead n s).iocode = s.iocode := rfl
@[simp] theorem afterSrcRead_pos (n : Word) (s : State) : (afterSrcRead n s).pos = s.pos := rfl
@[simp] theorem afterSrcRead_maskval (n : Word) (s : State) : (afterSrcRead n s).maskval = s.maskval := rfl
@[simp] theorem afterSrcRead_binding (n : Word) (s : State) : (afterSrcRead n s).binding = s.binding := rfl
@[simp] theorem afterSrcRead_src (n : Word) (s : State) : (afterSrcRead n s).src = srcLeft n s := rfl
@[simp] theorem afterSrcRead_endless (n : Word) (s : State) : (afterSrcRead n s).endless = srcEndless s := rfl
@[simp] theorem afterSrcRead_snk (n : Word) (s : State) : (afterSrcRead n s).snk = s.snk := rfl
@[simp] theorem afterSrcRead_srcAnswers (n : Word) (s : State) : (afterSrcRead n s).srcAnswers = s.srcAnswers.tail := rfl
@[simp] theorem afterSrcRead_snkAnswers (n : Word) (s : State) : (afterSrcRead n s).snkAnswers = s.snkAnswers := rfl
@[simp] theorem afterSrcRead_script (n : Word) (s : State) : (afterSrcRead n s).script = s.script := rfl
@[simp] theorem afterSrcRead_resetLine (n : Word) (s : State) : (afterSrcRead n s).resetLine = s.resetLine := rfl
@[simp] theorem afterSrcRead_reads (n : Word) (s : State) : (afterSrcRead n s).reads = s.reads := rfl
@[simp] theorem afterSrcRead_portLog (n : Word) (s : State) : (afterSrcRead n s).portLog = s.portLog ++ srcCall n s := rfl
@[simp] theorem afterSrcRead_draws (n : Word) (s : State) : (afterSrcRead n s).draws = s.draws + 1 := rfl

@[simp] theorem afterSinkWrite_phase (bs : List Byte) (s : State) : (afterSinkWrite bs s).phase = s.phase := rfl
@[simp] theorem afterSinkWrite_offset (bs : List Byte) (s : State) : (afterSinkWrite bs s).offset = s.offset := rfl
@[simp] theorem afterSinkWrite_chunk (bs : List Byte) (s : State) : (afterSinkWrite bs s).chunk = s.chunk := rfl
@[simp] theorem afterSinkWrite_len (bs : List Byte) (s : State) : (afterSinkWrite bs s).len = s.len := rfl
@[simp] theorem afterSinkWrite_buf (bs : List Byte) (s : State) : (afterSinkWrite bs s).buf = s.buf := rfl
@[simp] theorem afterSinkWrite_bufGen (bs : List Byte) (s : State) : (afterSinkWrite bs s).bufGen = s.bufGen := rfl
@[simp] theorem afterSinkWrite_errkind (bs : List Byte) (s : State) : (afterSinkWrite bs s).errkind = s.errkind := rfl
@[simp] theorem afterSinkWrite_errsite (bs : List Byte) (s : State) : (afterSinkWrite bs s).errsite = s.errsite := rfl
@[simp] theorem afterSinkWrite_iocode (bs : List Byte) (s : State) : (afterSinkWrite bs s).iocode = s.iocode := rfl
@[simp] theorem afterSinkWrite_pos (bs : List Byte) (s : State) : (afterSinkWrite bs s).pos = s.pos := rfl
@[simp] theorem afterSinkWrite_maskval (bs : List Byte) (s : State) : (afterSinkWrite bs s).maskval = s.maskval := rfl
@[simp] theorem afterSinkWrite_binding (bs : List Byte) (s : State) : (afterSinkWrite bs s).binding = s.binding := rfl
@[simp] theorem afterSinkWrite_src (bs : List Byte) (s : State) : (afterSinkWrite bs s).src = s.src := rfl
@[simp] theorem afterSinkWrite_endless (bs : List Byte) (s : State) : (afterSinkWrite bs s).endless = s.endless := rfl
@[simp] theorem afterSinkWrite_snk (bs : List Byte) (s : State) : (afterSinkWrite bs s).snk = s.snk ++ snkTakes bs s := rfl
@[simp] theorem afterSinkWrite_srcAnswers (bs : List Byte) (s : State) : (afterSinkWrite bs s).srcAnswers = s.srcAnswers := rfl
@[simp] theorem afterSinkWrite_snkAnswers (bs : List Byte) (s : State) : (afterSinkWrite bs s).snkAnswers = s.snkAnswers.tail := rfl
@[simp] theorem afterSinkWrite_script (bs : List Byte) (s : State) : (afterSinkWrite bs s).script = s.script := rfl
@[simp] theorem afterSinkWrite_resetLine (bs : List Byte) (s : State) : (afterSinkWrite bs s).resetLine = s.resetLine := rfl
@[simp] theorem afterSinkWrite_reads (bs : List Byte) (s : State) : (afterSinkWrite bs s).reads = s.reads := rfl
@[simp] theorem afterSinkWrite_portLog (bs : List Byte) (s : State) : (afterSinkWrite bs s).portLog = s.portLog ++ snkCall bs s := rfl
@[simp] theorem afterSinkWrite_draws (bs : List Byte) (s : State) : (afterSinkWrite bs s).draws = s.draws + 1 := rfl

@[simp] theorem connect_phase (b : Binding) (e : Bool) (src snk : List Byte) (s : State) : (connect b e src snk s).phase = s.phase := rfl
@[simp] theorem connect_offset (b : Binding) (e : Bool) (src snk : List Byte) (s : State) : (connect b e src snk s).offset = s.offset := rfl
@[simp] theorem connect_chunk (b : Binding) (e : Bool) (src snk : List Byte) (s : State) : (connect b e src snk s).chunk = s.chunk := rfl
@[simp] theorem connect_len (b : Binding) (e : Bool) (src snk : List Byte) (s : State) : (connect b e src snk s).len = s.len := rfl
@[simp] theorem connect_buf (b : Binding) (e : Bool) (src snk : List Byte) (s : State) : (connect b e src snk s).buf = s.buf := rfl
@[simp] theorem connect_bufGen (b : Binding) (e : Bool) (src snk : List Byte) (s : State) : (connect b e src snk s).bufGen = s.bufGen := rfl
@[simp] theorem connect_errkind (b : Binding) (e : Bool) (src snk : List Byte) (s : State) : (connect b e src snk s).errkind = s.errkind := rfl
@[simp] theorem connect_errsite (b : Binding) (e : Bool) (src snk : List Byte) (s : State) : (connect b e src snk s).errsite = s.errsite := rfl
@[simp] theorem connect_iocode (b : Binding) (e : Bool) (src snk : List Byte) (s : State) : (connect b e src snk s).iocode = s.iocode := rfl
@[simp] theorem connect_pos (b : Binding) (e : Bool) (src snk : List Byte) (s : State) : (connect b e src snk s).pos = s.pos := rfl
@[simp] theorem connect_maskval (b : Binding) (e : Bool) (src snk : List Byte) (s : State) : (connect b e src snk s).maskval = s.maskval := rfl
@[simp] theorem connect_binding (b : Binding) (e : Bool) (src snk : List Byte) (s : State) : (connect b e src snk s).binding = b := rfl
@[simp] theorem connect_src (b : Binding) (e : Bool) (src snk : List Byte) (s : State) : (connect b e src snk s).src = src := rfl
@[simp] theorem connect_endless (b : Binding) (e : Bool) (src snk : List Byte) (s : State) : (connect b e src snk s).endless = e := rfl
@[simp] theorem connect_snk (b : Binding) (e : Bool) (src snk : List Byte) (s : State) : (connect b e src snk s).snk = snk := rfl
@[simp] theorem connect_srcAnswers (b : Binding) (e : Bool) (src snk : List Byte) (s : State) : (connect b e src snk s).srcAnswers = s.srcAnswers := rfl
@[simp] theorem connect_snkAnswers (b : Binding) (e : Bool) (src snk : List Byte) (s : State) : (connect b e src snk s).snkAnswers = s.snkAnswers := rfl
@[simp] theorem connect_script (b : Binding) (e : Bool) (src snk : List Byte) (s : State) : (connect b e src snk s).script = s.script := rfl
@[simp] theorem connect_resetLine (b : Binding) (e : Bool) (src snk : List Byte) (s : State) : (connect b e src snk s).resetLine = s.resetLine := rfl
@[simp] theorem connect_reads (b : Binding) (e : Bool) (src snk : List Byte) (s : State) : (connect b e src snk s).reads = s.reads := rfl
@[simp] theorem connect_portLog (b : Binding) (e : Bool) (src snk : List Byte) (s : State) : (connect b e src snk s).portLog = [] := rfl
@[simp] theorem connect_draws (b : Binding) (e : Bool) (src snk : List Byte) (s : State) : (connect b e src snk s).draws = s.draws := rfl

@[simp] theorem applyReset_phase (s : State) : (applyReset s).phase = .idle := rfl
@[simp] theorem applyReset_offset (s : State) : (applyReset s).offset = 0#64 := rfl
@[simp] theorem applyReset_chunk (s : State) : (applyReset s).chunk = Config.chunkDefault := rfl
@[simp] theorem applyReset_len (s : State) : (applyReset s).len = Config.freeLen s.draws := rfl
@[simp] theorem applyReset_buf (s : State) : (applyReset s).buf = [] := rfl
@[simp] theorem applyReset_bufGen (s : State) : (applyReset s).bufGen = s.draws := rfl
@[simp] theorem applyReset_errkind (s : State) : (applyReset s).errkind = .none := rfl
@[simp] theorem applyReset_errsite (s : State) : (applyReset s).errsite = 0#1 := rfl
@[simp] theorem applyReset_iocode (s : State) : (applyReset s).iocode = 0#32 := rfl
@[simp] theorem applyReset_pos (s : State) : (applyReset s).pos = 0#64 := rfl
@[simp] theorem applyReset_maskval (s : State) : (applyReset s).maskval = Config.freeMaskval s.draws := rfl
@[simp] theorem applyReset_binding (s : State) : (applyReset s).binding = .unbound := rfl
@[simp] theorem applyReset_src (s : State) : (applyReset s).src = s.src := rfl
@[simp] theorem applyReset_endless (s : State) : (applyReset s).endless = s.endless := rfl
@[simp] theorem applyReset_snk (s : State) : (applyReset s).snk = s.snk := rfl
@[simp] theorem applyReset_srcAnswers (s : State) : (applyReset s).srcAnswers = s.srcAnswers := rfl
@[simp] theorem applyReset_snkAnswers (s : State) : (applyReset s).snkAnswers = s.snkAnswers := rfl
@[simp] theorem applyReset_script (s : State) : (applyReset s).script = s.script := rfl
@[simp] theorem applyReset_resetLine (s : State) : (applyReset s).resetLine = s.resetLine := rfl
@[simp] theorem applyReset_reads (s : State) : (applyReset s).reads = s.reads := rfl
@[simp] theorem applyReset_portLog (s : State) : (applyReset s).portLog = s.portLog := rfl
@[simp] theorem applyReset_draws (s : State) : (applyReset s).draws = s.draws + 1 := rfl
@[simp] theorem usedLevel_phase (s : State) : (usedLevel s).phase = s.phase := rfl
@[simp] theorem usedLevel_offset (s : State) : (usedLevel s).offset = s.offset := rfl
@[simp] theorem usedLevel_chunk (s : State) : (usedLevel s).chunk = s.chunk := rfl
@[simp] theorem usedLevel_len (s : State) : (usedLevel s).len = s.len := rfl
@[simp] theorem usedLevel_buf (s : State) : (usedLevel s).buf = s.buf := rfl
@[simp] theorem usedLevel_bufGen (s : State) : (usedLevel s).bufGen = s.bufGen := rfl
@[simp] theorem usedLevel_errkind (s : State) : (usedLevel s).errkind = s.errkind := rfl
@[simp] theorem usedLevel_errsite (s : State) : (usedLevel s).errsite = s.errsite := rfl
@[simp] theorem usedLevel_iocode (s : State) : (usedLevel s).iocode = s.iocode := rfl
@[simp] theorem usedLevel_pos (s : State) : (usedLevel s).pos = s.pos := rfl
@[simp] theorem usedLevel_maskval (s : State) : (usedLevel s).maskval = s.maskval := rfl
@[simp] theorem usedLevel_binding (s : State) : (usedLevel s).binding = s.binding := rfl
@[simp] theorem usedLevel_src (s : State) : (usedLevel s).src = s.src := rfl
@[simp] theorem usedLevel_endless (s : State) : (usedLevel s).endless = s.endless := rfl
@[simp] theorem usedLevel_snk (s : State) : (usedLevel s).snk = s.snk := rfl
@[simp] theorem usedLevel_srcAnswers (s : State) : (usedLevel s).srcAnswers = s.srcAnswers := rfl
@[simp] theorem usedLevel_snkAnswers (s : State) : (usedLevel s).snkAnswers = s.snkAnswers := rfl
@[simp] theorem usedLevel_script (s : State) : (usedLevel s).script = s.script := rfl
@[simp] theorem usedLevel_resetLine (s : State) : (usedLevel s).resetLine = s.resetLine.tail := rfl
@[simp] theorem usedLevel_reads (s : State) : (usedLevel s).reads = s.reads := rfl
@[simp] theorem usedLevel_portLog (s : State) : (usedLevel s).portLog = s.portLog := rfl
@[simp] theorem usedLevel_draws (s : State) : (usedLevel s).draws = s.draws := rfl

end Sys2Proof.Machine
end

