-- ==== Sys2Proof/Laws/Ops.lean ====
section
/-! SUPPORT. For each shared operation, once, everything it can do; and the inversion lemmas of the meanings and of the
step, which later proofs cite instead of unfolding them. -/

namespace Sys2Proof.Machine

theorem word_ne_zero {n : Word} (h : n ≠ 0#32) : 1 ≤ n.toNat := by
  rcases Nat.eq_zero_or_pos n.toNat with h0 | h0
  · exact absurd (BitVec.eq_of_toNat_eq (by simpa using h0)) h
  · exact h0

/-! Lengths of reads. -/

theorem readCount_le_asked (k : Nat) (n : Word) (m : Nat) : readCount k n m ≤ n.toNat := by
  unfold readCount; omega

theorem readCount_le_held (k : Nat) (n : Word) (m : Nat) : readCount k n m ≤ m := by
  unfold readCount; omega

theorem readCount_pos (k : Nat) {n : Word} {m : Nat} (hn : n ≠ 0#32) (hm : m ≠ 0) : 1 ≤ readCount k n m := by
  have := word_ne_zero hn
  unfold readCount; omega

/-- An admissible offer is delivered as it is (R53). -/
theorem readCount_of_admissible {k : Nat} {n : Word} {m : Nat} (h1 : 1 ≤ k) (hn : k ≤ n.toNat) (hm : k ≤ m) :
    readCount k n m = k := by
  unfold readCount; omega

/-! The buffer. -/

theorem bufChunk_length (s : State) : (bufChunk s).length = s.len.toNat := by
  simp [bufChunk]

theorem bufChunk_getElem? (s : State) {i : Nat} (h : i < s.len.toNat) : (bufChunk s)[i]? = some (bufByte s i) := by
  simp [bufChunk, h]

/-- A buffer whose first `LEN` bytes are `bs` holds the chunk `bs`. -/
theorem bufChunk_eq_of_buf {s : State} {bs rest : List Byte} (hb : s.buf = bs ++ rest) (hl : s.len.toNat = bs.length) :
    bufChunk s = bs := by
  apply List.ext_getElem?
  intro i
  by_cases h : i < bs.length
  · rw [bufChunk_getElem? s (hl ▸ h)]
    simp [bufByte, hb, List.getD_eq_getElem?_getD, List.getElem?_append_left h, h]
  · have h1 : (bufChunk s).length ≤ i := by rw [bufChunk_length]; omega
    rw [List.getElem?_eq_none h1, List.getElem?_eq_none (by omega)]

/-- The chunk depends on `BUF` and `LEN` only. -/
theorem bufChunk_congr {s t : State} (hb : t.buf = s.buf) (hg : t.bufGen = s.bufGen) (hl : t.len = s.len) :
    bufChunk t = bufChunk s := by
  simp [bufChunk, bufByte, hb, hg, hl]

/-! The ports. -/

/-- A source that is not endless holds what it lists. -/
theorem srcHeld_of_finite {s : State} (n : Word) (h : s.endless = false) : srcHeld n s = s.src := by
  simp [srcHeld, h]

/-- An endless source always holds as much as is asked. -/
theorem srcHeld_of_endless {s : State} (n : Word) (h : s.endless = true) : n.toNat ≤ (srcHeld n s).length := by
  simp only [srcHeld, h, if_true, List.length_append, List.length_map, List.length_range]
  omega

/-- What `SrcRead` can do: not answer; deliver a front part of what the source holds; fail. -/
theorem srcReply_cases (n : Word) (s : State) :
    (nextSrcAnswer s = .wait ∧ srcReply n s = .waiting ∧ srcLeft n s = s.src ∧ srcCall n s = []) ∨
    (∃ k, nextSrcAnswer s = .deliver k ∧
      srcReply n s = .ok ((srcHeld n s).take (readCount k n (srcHeld n s).length)) ∧
      srcLeft n s = (srcHeld n s).drop (readCount k n (srcHeld n s).length) ∧
      srcCall n s = [.srcRead n ((srcHeld n s).take (readCount k n (srcHeld n s).length))]) ∨
    (∃ code, nextSrcAnswer s = .fail code ∧ srcReply n s = .failed code ∧
      srcLeft n s = Config.srcAfterFail s.draws ∧ srcCall n s = [.srcRead n []]) := by
  cases h : nextSrcAnswer s with
  | wait => exact .inl ⟨rfl, by simp [srcReply, h], by simp [srcLeft, h], by simp [srcCall, srcReply, h]⟩
  | deliver k =>
    exact .inr (.inl ⟨k, rfl, by simp [srcReply, h], by simp [srcLeft, h], by simp [srcCall, srcReply, h]⟩)
  | fail code =>
    exact .inr (.inr ⟨code, rfl, by simp [srcReply, h], by simp [srcLeft, h], by simp [srcCall, srcReply, h]⟩)

/-- Only a failed read touches whether the source is endless. -/
theorem srcEndless_of_not_failed {n : Word} {s : State} (h : ∀ code, srcReply n s ≠ .failed code) :
    srcEndless s = s.endless := by
  unfold srcEndless
  cases ha : nextSrcAnswer s with
  | wait => rfl
  | deliver k => rfl
  | fail code => exact absurd (by simp [srcReply, ha]) (h code)

/-- What `SinkWrite` can do: not answer; take all; take a front part and fail. -/
theorem snkReply_cases (bs : List Byte) (s : State) :
    (nextSnkAnswer s = .wait ∧ snkReply s = .waiting ∧ snkTakes bs s = [] ∧ snkCall bs s = []) ∨
    (nextSnkAnswer s = .ok ∧ snkReply s = .ok ∧ snkTakes bs s = bs ∧ snkCall bs s = [.sinkWrite bs]) ∨
    (∃ code j, nextSnkAnswer s = .fail code j ∧ snkReply s = .failed code ∧ snkTakes bs s = bs.take j ∧
      snkCall bs s = [.sinkWrite bs]) := by
  cases h : nextSnkAnswer s with
  | wait => exact .inl ⟨rfl, by simp [snkReply, h], by simp [snkTakes, h], by simp [snkCall, snkReply, h]⟩
  | ok => exact .inr (.inl ⟨rfl, by simp [snkReply, h], by simp [snkTakes, h], by simp [snkCall, snkReply, h]⟩)
  | fail code j =>
    exact .inr (.inr ⟨code, j, rfl, by simp [snkReply, h], by simp [snkTakes, h], by simp [snkCall, snkReply, h]⟩)

/-! The meanings. -/

/-- XFORM answers a next state exactly when it is accepted (R141). -/
theorem execXform_cases {s t : State} (h : execXform s = .next t) :
    s.phase.resting = true ∧ s.binding = .bound ∧ t = { clearErrors s with phase := .init } := by
  unfold execXform at h
  split at h
  · next hr =>
    cases hb : s.binding <;> simp only [hb] at h
    · cases h
    · exact ⟨hr, rfl, by injection h with h; exact h.symm⟩
    · cases h
  · cases h

/-- MASKQ answers a next state exactly in a resting phase (R83, R104). -/
theorem execMaskq_cases {s t : State} (h : execMaskq s = .next t) :
    s.phase.resting = true ∧ t = { s with maskval := mask s.pos.toNat } := by
  unfold execMaskq at h
  split at h
  · next hr => exact ⟨hr, by injection h with h; exact h.symm⟩
  · cases h

/-- INIT: a ConfigError or the first READ (R142). -/
theorem execInit_cases {s t : State} (h : execInit s = .next t) :
    (s.chunk = 0#32 ∧ t = release (raise .config { s with offset := 0#64, len := 0#32 })) ∨
    (s.chunk ≠ 0#32 ∧ t = { s with offset := 0#64, len := 0#32, phase := .read }) := by
  unfold execInit at h
  injection h with h
  by_cases hc : s.chunk = 0#32
  · exact .inl ⟨hc, by rw [← h, if_pos hc]⟩
  · exact .inr ⟨hc, by rw [← h, if_neg hc]⟩

/-- READ: the port is silent, the stream has ended, a chunk has come, or the port has failed (R143, R195). -/
theorem execRead_cases {s t : State} (h : execRead s = .next t) :
    (srcReply s.chunk s = .waiting ∧ t = afterSrcRead s.chunk s) ∨
    (srcReply s.chunk s = .ok [] ∧
      t = release { afterSrcRead s.chunk s with len := 0#32, phase := .done }) ∨
    (∃ b bs, srcReply s.chunk s = .ok (b :: bs) ∧
      t = { afterSrcRead s.chunk s with
        buf := (b :: bs) ++ s.buf.drop (b :: bs).length
        len := BitVec.ofNat 32 (b :: bs).length
        phase := .mask }) ∨
    (∃ code, srcReply s.chunk s = .failed code ∧
      t = release (raise (.readFailed code)
        { afterSrcRead s.chunk s with
          len := Config.freeLen (s.draws + 1), buf := [], bufGen := s.draws + 1, draws := s.draws + 1 + 1 })) := by
  unfold execRead at h
  injection h with h
  cases hr : srcReply s.chunk s with
  | waiting => rw [hr] at h; exact .inl ⟨rfl, h.symm⟩
  | ok bs =>
    rw [hr] at h
    cases bs with
    | nil => exact .inr (.inl ⟨rfl, h.symm⟩)
    | cons b bs => exact .inr (.inr (.inl ⟨b, bs, rfl, h.symm⟩))
  | failed code => rw [hr] at h; exact .inr (.inr (.inr ⟨code, rfl, h.symm⟩))

/-- WRITE: the port is silent, has taken the chunk, or has failed (R145, R195). -/
theorem execWrite_cases {s t : State} (h : execWrite s = .next t) :
    (snkReply s = .waiting ∧ t = afterSinkWrite (bufChunk s) s) ∨
    (snkReply s = .ok ∧ t = { afterSinkWrite (bufChunk s) s with phase := .adv }) ∨
    (∃ code, snkReply s = .failed code ∧
      t = release (raise (.writeFailed code) (afterSinkWrite (bufChunk s) s))) := by
  unfold execWrite at h
  injection h with h
  cases hr : snkReply s with
  | waiting => rw [hr] at h; exact .inl ⟨rfl, h.symm⟩
  | ok => rw [hr] at h; exact .inr (.inl ⟨rfl, h.symm⟩)
  | failed code => rw [hr] at h; exact .inr (.inr ⟨code, rfl, h.symm⟩)

/-! The register bank and the host's moves. -/

/-- An access reaches a register exactly if it is well formed (R37). -/
theorem regAt_isSome (off : Word) (width : Nat) : (regAt off width).isSome = Access.wellFormed ⟨off, width⟩ := by
  unfold regAt Access.wellFormed Access.aligned Access.inWindow Access.wide
  by_cases h : width = 32 ∧ off.toNat % 4 = 0 ∧ off.toNat < 256
  · obtain ⟨h1, h2, h3⟩ := h
    have h4 : off.toNat ≤ 0xFC := by omega
    rw [if_pos ⟨h1, h2, h3⟩]
    split <;> simp [h1, h2, h4]
  · rw [if_neg h]
    have h' : ¬ (off.toNat % 4 = 0 ∧ off.toNat ≤ 0xFC ∧ width = 32) := by
      rintro ⟨h1, h2, h3⟩
      exact h ⟨h3, h1, by omega⟩
    simp only [Option.isSome_none]
    symm
    simp only [Bool.and_eq_false_iff, decide_eq_false_iff_not]
    by_contra hc
    simp only [not_or, not_not] at hc
    exact h' ⟨hc.1.1, hc.1.2, hc.2⟩

/-- `CMD` stands at offset 0 and nowhere else (R30). -/
theorem regAt_cmd {off : Word} {width : Nat} : regAt off width = some .cmd ↔ off = 0x00#32 ∧ width = 32 := by
  constructor
  · intro h
    unfold regAt at h
    split at h
    · next hc =>
      split at h <;> first
        | exact ⟨BitVec.eq_of_toNat_eq (by assumption), hc.1⟩
        | cases h
    · cases h
  · rintro ⟨rfl, rfl⟩
    rfl

/-- `csr_write` to a register other than `CMD` touches CHUNK and POS only (R33, R35, R37). -/
theorem csrStore_frame (r : Reg) (v : Word) (s : State) :
    csrStore r v s = { s with chunk := (csrStore r v s).chunk, pos := (csrStore r v s).pos } := by
  cases r <;> rfl

/-- The phase register names its row of the table (R84). -/
theorem decodePhase_phaseCode (p : Phase) : decodePhase (phaseCode p) = phaseInstr p := by
  cases p <;> rfl

/-- A command submitted to `CMD`: what the decoder says of the word decides (R83, R87). -/
theorem submit_cases {v : Word} {s t : State} (h : submit v s = .next t) :
    (∃ i, decodeCmd v = .command i ∧ exec i s = .next t) ∨
    (∃ w, decodeCmd v = .reserved w ∧ t = raise .badCommand s) := by
  unfold submit at h
  change (match decodeCmd v with | .command i => exec i s | .reserved _ => .next (raise .badCommand s)) = _ at h
  cases hd : decodeCmd v with
  | command i => rw [hd] at h; exact .inl ⟨i, rfl, h⟩
  | reserved w => rw [hd] at h; exact .inr ⟨w, rfl, by injection h with h; exact h.symm⟩

/-- What a register write of the host can do. -/
theorem hostWrite_cases {off v : Word} {width : Nat} {s t : State} (h : hostWrite off width v s = .next t) :
    (off = 0x00#32 ∧ width = 32 ∧ submit v s = .next t) ∨
    (∃ r, regAt off width = some r ∧ r ≠ .cmd ∧ t = csrStore r v s) := by
  unfold hostWrite at h
  cases hr : regAt off width with
  | none => rw [hr] at h; cases h
  | some r =>
    rw [hr] at h
    by_cases hc : r = .cmd
    · subst hc
      obtain ⟨h1, h2⟩ := regAt_cmd.mp hr
      exact .inl ⟨h1, h2, h⟩
    · refine .inr ⟨r, rfl, hc, ?_⟩
      cases r <;> first | exact absurd rfl hc | (injection h with h; exact h.symm)

/-- What a register read of the host can do (R30). -/
theorem hostRead_cases {off : Word} {width : Nat} {s t : State} (h : hostRead off width s = .next t) :
    ∃ r, regAt off width = some r ∧ t = { s with reads := s.reads ++ [csrValue r s] } := by
  unfold hostRead at h
  cases hr : regAt off width with
  | none => rw [hr] at h; cases h
  | some r => rw [hr] at h; exact ⟨r, rfl, by injection h with h; exact h.symm⟩

/-- What a move of the host can do (R216, R218): submit a command, write or read a register, bind, reset. -/
theorem hostMove_cases {m : HostMove} {s t : State} (h : hostMove m s = .next t) :
    (∃ v, m = .write 0x00#32 32 v ∧ submit v s = .next t) ∨
    (∃ off width v r, m = .write off width v ∧ regAt off width = some r ∧ r ≠ .cmd ∧ t = csrStore r v s) ∨
    (∃ off width r, m = .read off width ∧ regAt off width = some r ∧
      t = { s with reads := s.reads ++ [csrValue r s] }) ∨
    (∃ src snk, m = .bind src snk ∧ t = connect .bound false src snk s) ∨
    (∃ front snk, m = .bindEndless front snk ∧ t = connect .bound true front snk s) ∨
    (∃ stream, m = .bindAliased stream ∧ t = connect .aliased false stream stream s) ∨
    (m = .reset ∧ t = applyReset s) := by
  cases m with
  | write off width v =>
    obtain ⟨rfl, rfl, h⟩ | ⟨r, hr, hc, h⟩ := hostWrite_cases h
    · exact .inl ⟨v, rfl, h⟩
    · exact .inr (.inl ⟨off, width, v, r, rfl, hr, hc, h⟩)
  | read off width =>
    obtain ⟨r, hr, h⟩ := hostRead_cases h
    exact .inr (.inr (.inl ⟨off, width, r, rfl, hr, h⟩))
  | bind src snk => injection h with h; exact .inr (.inr (.inr (.inl ⟨src, snk, rfl, h.symm⟩)))
  | bindEndless front snk => injection h with h; exact .inr (.inr (.inr (.inr (.inl ⟨front, snk, rfl, h.symm⟩))))
  | bindAliased stream =>
    injection h with h; exact .inr (.inr (.inr (.inr (.inr (.inl ⟨stream, rfl, h.symm⟩)))))
  | reset => injection h with h; exact .inr (.inr (.inr (.inr (.inr (.inr ⟨rfl, h.symm⟩)))))

/-- What a step can do: a reset, the host's move in a resting phase, or the instruction `PHASE` names. -/
theorem step_cases {s t : State} (h : step s = .next t) :
    (s.resetLine.head? = some true ∧ t = applyReset (usedLevel s)) ∨
    (s.resetLine.head? ≠ some true ∧ s.phase.resting = true ∧ ∃ m rest, s.script = m :: rest ∧
      hostMove m { usedLevel s with script := rest } = .next t) ∨
    (s.resetLine.head? ≠ some true ∧ (s.phase.resting = true → s.script = []) ∧
      exec (phaseInstr s.phase) (usedLevel s) = .next t) := by
  unfold step stepBoundary at h
  by_cases hl : s.resetLine.head? = some true
  · rw [if_pos hl] at h
    exact .inl ⟨hl, by injection h with h; exact h.symm⟩
  · rw [if_neg hl] at h
    unfold advance sequence at h
    simp only [usedLevel_phase, usedLevel_script, decodePhase_phaseCode] at h
    by_cases hp : s.phase.resting = true
    · rw [if_pos hp] at h
      cases hs : s.script with
      | nil => rw [hs] at h; exact .inr (.inr ⟨hl, fun _ => rfl, h⟩)
      | cons m rest => rw [hs] at h; exact .inr (.inl ⟨hl, hp, m, rest, rfl, h⟩)
    · rw [if_neg hp] at h
      exact .inr (.inr ⟨hl, fun hq => absurd hq hp, h⟩)

end Sys2Proof.Machine
end

