-- ==== Sys2Proof/Laws/PerInstr.lean ====
section
/-! SUPPORT. A statement about every instruction as syntax, one lemma per constructor. -/

namespace Sys2Proof.Laws.Coding

/-- The instruction is well formed, and its encoding is a well-formed word or phase code (R81, R84). -/
def Statement (i : Instr) : Prop := i.wellFormed = true ∧ (encode i).wellFormed = true

theorem xform : Statement .xform := by unfold Statement; decide
theorem maskq : Statement .maskq := by unfold Statement; decide
theorem idle : Statement .idle := by unfold Statement; decide
theorem init : Statement .init := by unfold Statement; decide
theorem read : Statement .read := by unfold Statement; decide
theorem mask : Statement .mask := by unfold Statement; decide
theorem write : Statement .write := by unfold Statement; decide
theorem adv : Statement .adv := by unfold Statement; decide
theorem done : Statement .done := by unfold Statement; decide
theorem fail : Statement .fail := by unfold Statement; decide

end Sys2Proof.Laws.Coding
end

