-- ==== Sys2Proof/Tests/Slice0.lean ====
section
/-! SUPPORT. Small tests of single steps against the vectors of spec/95_test_vectors.md, the ill-formed terms the checks
refuse, decoded words written out from the encodings, and for each statement with hypotheses a witness that meets them. -/

namespace Sys2Proof.Tests

open Sys2Proof Sys2Proof.Machine

/-! Well-formedness: an ill-formed term for each check. -/

theorem test_wf_zero_field : Code.wellFormed (.cmd 0x00000101#32) = false := by decide
theorem test_wf_opcode : Code.wellFormed (.cmd 0x00000003#32) = false := by decide
theorem test_wf_access_aligned : Access.wellFormed ⟨0x02#32, 32⟩ = false := by decide
theorem test_wf_access_window : Access.wellFormed ⟨0x100#32, 32⟩ = false := by decide
theorem test_wf_access_width : Access.wellFormed ⟨0x04#32, 8⟩ = false := by decide
theorem test_wf_access_good : Access.wellFormed ⟨0xFC#32, 32⟩ = true := by decide

/-! Decoding: words written out from the formats of R81 (ZERO, OPC) and R84. -/

theorem test_word_xform : decode (.cmd (0b000000000000000000000000#24 ++ 0b00000001#8)) = .command .xform := by decide
theorem test_word_maskq : decode (.cmd (0b000000000000000000000000#24 ++ 0b00000010#8)) = .command .maskq := by decide
theorem test_word_zero : decode (.cmd 0x00000000#32) = .reserved 0x00000000#32 := by decide
theorem test_word_zero_field_set : decode (.cmd 0x00000101#32) = .reserved 0x00000101#32 := by decide
theorem test_word_all_ones : decode (.cmd 0xFFFFFFFF#32) = .reserved 0xFFFFFFFF#32 := by decide
theorem test_code_idle : decode (.phase 0b000#3) = .command .idle := by decide
theorem test_code_init : decode (.phase 0b001#3) = .command .init := by decide
theorem test_code_read : decode (.phase 0b010#3) = .command .read := by decide
theorem test_code_mask : decode (.phase 0b011#3) = .command .mask := by decide
theorem test_code_write : decode (.phase 0b100#3) = .command .write := by decide
theorem test_code_adv : decode (.phase 0b101#3) = .command .adv := by decide
theorem test_code_done : decode (.phase 0b110#3) = .command .done := by decide
theorem test_code_fail : decode (.phase 0b111#3) = .command .fail := by decide
theorem test_table_word_reserved : decodeTableWord 32 0x00000003 = none := by decide

/-! The keystream: section 2.1 and 2.2 of 95_test_vectors.md. -/

/-- K1, K9, K10, K15, K18, K19, K25, K27. -/
theorem test_kidx_vectors :
    [0, 127, 128, 199, 32767, 32768, 4294967296, 18446744073709551615].map (fun p => (kidx p).val) =
      [0, 127, 0, 71, 127, 0, 0, 127] := by decide

/-- K3, K11, K20. -/
theorem test_mask_vectors : [2, 129, 32769].map mask = [0xD6#8, 0x4A#8, 0x4A#8] := by decide

/-- X4, X5, X6. -/
theorem test_xorb_vectors :
    xorb 0xFF#8 0 = 0x3C#8 ∧ xorb 0xC3#8 0 = 0x00#8 ∧ xorb 0xC3#8 128 = 0x00#8 := by decide

/-- X13, X20. -/
theorem test_maskbuf_vectors :
    maskbuf 0#64 [0x49#8, 0x44#8, 0x33#8] = [0x8A#8, 0x0E#8, 0xE5#8] ∧
    maskbuf 0#64 [0xDE#8, 0xAD#8, 0xBE#8] = [0x1D#8, 0xE7#8, 0x68#8] := by decide

/-- The default table of 93_implementation_defined.md G1 (general knowledge, for numeric vectors only). -/
def g1Low : List Byte :=
  [0xC3, 0x4A, 0xD6, 0xCA, 0x90, 0x67, 0xF7, 0x52, 0xD8, 0xA1, 0x66, 0x62, 0x9F, 0x5B, 0x09, 0x00] ++
  [0xC3, 0x5E, 0x95, 0x23, 0x9F, 0x13, 0x11, 0x7E, 0xD8, 0x92, 0x3F, 0xBC, 0x90, 0xBB, 0x74, 0x0E] ++
  [0xC3, 0x47, 0x74, 0x3D, 0x90, 0xAA, 0x3F, 0x51, 0xD8, 0xF4, 0x11, 0x84, 0x9F, 0xDE, 0x95, 0x1D] ++
  [0xC3, 0xC6, 0x09, 0xD5, 0x9F, 0xFA, 0x66, 0xF9, 0xD8, 0xF0, 0xF7, 0xA0, 0x90, 0xA1, 0xD6, 0xF3]

def g1High : List Byte :=
  [0xC3, 0xF3, 0xD6, 0xA1, 0x90, 0xA0, 0xF7, 0xF0, 0xD8, 0xF9, 0x66, 0xFA, 0x9F, 0xD5, 0x09, 0xC6] ++
  [0xC3, 0x1D, 0x95, 0xDE, 0x9F, 0x84, 0x11, 0xF4, 0xD8, 0x51, 0x3F, 0xAA, 0x90, 0x3D, 0x74, 0x47] ++
  [0xC3, 0x0E, 0x74, 0xBB, 0x90, 0xBC, 0x3F, 0x92, 0xD8, 0x7E, 0x11, 0x13, 0x9F, 0x23, 0x95, 0x5E] ++
  [0xC3, 0x00, 0x09, 0x5B, 0x9F, 0x62, 0x66, 0xA1, 0xD8, 0x52, 0xF7, 0x67, 0x90, 0xCA, 0xD6, 0x4A]

def g1 (i : Fin Config.tableLen) : Byte := (g1Low ++ g1High).getD i.val 0

/-- X12, X17, X18, X19. -/
theorem test_maskbuf_g1_vectors :
    maskbufBy g1 0#64 [0x66, 0x4C, 0x61, 0x43] = [0xA5, 0x06, 0xB7, 0x89] ∧
    maskbufBy g1 64#64 [0x00, 0x01, 0x02, 0x03] = [0xC3, 0xF2, 0xD4, 0xA2] ∧
    maskbufBy g1 126#64 [0xAA, 0xAA, 0xAA, 0xAA] = [0x7C, 0xE0, 0x69, 0xE0] ∧
    maskbufBy g1 (BitVec.ofNat 64 (2 ^ 64 - 2)) [0x00, 0x00, 0x00, 0x00] = [0xD6, 0x4A, 0xC3, 0x4A] := by decide

/-! Single steps. `after` reads a field of the next state. -/

/-- What the next state holds, if there is one. -/
def after {α : Type} (o : Host.Outcome State Fault Refusal) (f : State → α) : Option α :=
  match o with
  | .next s => some (f s)
  | .fault _ => none
  | .refused _ => none

/-- The name of a refusal, if it is one. -/
def refusal (o : Host.Outcome State Fault Refusal) : Option Refusal :=
  match o with
  | .next _ => none
  | .fault _ => none
  | .refused r => some r

/-- A state at rest with explicit values and streams bound. -/
def atRest : State :=
  { State.reset with binding := .bound, src := [0x00, 0x01, 0x02], len := 0#32, maskval := 0x00#8 }

/-- A state of a run in the given phase, `CHUNK` = 4. -/
def inRun (p : Phase) : State := { atRest with phase := p, chunk := 4#32 }

/-- T1. -/
theorem test_xform_accept :
    after (exec .xform { atRest with
      phase := .fail, errkind := .ioFailure, errsite := 1#1, iocode := 0x1C#32, offset := 4#64 })
      (fun t => (t.phase, t.errkind, t.errsite, t.iocode, t.offset)) =
      some (.init, .none, 0#1, 0#32, 4#64) := by decide

theorem test_xform_unbound : refusal (exec .xform { atRest with binding := .unbound }) = some .nothingBound := by decide

/-- Q2, and E9: the status stays. -/
theorem test_maskq_in_fail :
    after (exec .maskq { atRest with phase := .fail, errkind := .badCommand, pos := 1#64 })
      (fun t => (t.maskval, statusWord t)) = some (0x4A#8, 0x37#32) := by decide

/-- Q5: the high half of POS counts, by whole periods. -/
theorem test_maskq_high_half :
    after (exec .maskq { atRest with pos := 0x100000001#64 }) State.maskval = some 0x4A#8 := by decide

/-- T2. -/
theorem test_init_starts :
    after (exec .init { inRun .init with chunk := 64#32, offset := 4#64, len := 4#32 })
      (fun t => (t.phase, t.offset, t.len)) = some (.read, 0#64, 0#32) := by decide

/-- T3. -/
theorem test_init_zero_chunk :
    after (exec .init { inRun .init with chunk := 0#32, offset := 4#64 })
      (fun t => (statusWord t, t.offset, t.len)) = some (0x17#32, 0#64, 0#32) := by decide

/-- T6: a short read. -/
theorem test_read_short :
    after (exec .read { inRun .read with src := [0x10, 0x20, 0x30], srcAnswers := [.deliver 1] })
      (fun t => (t.phase, t.len, t.buf, t.src)) = some (.mask, 1#32, [0x10], [0x20, 0x30]) := by decide

/-- T9. -/
theorem test_read_fails :
    after (exec .read { inRun .read with offset := 4#64, srcAnswers := [.fail 5#32] })
      (fun t => (statusWord t, t.iocode, t.offset)) = some (0x27#32, 5#32, 4#64) := by decide

/-- M3: masking at a position that is not 0. -/
theorem test_mask_offset :
    after (exec .mask { inRun .mask with offset := 1#64, len := 1#32, buf := [0x01] })
      (fun t => (t.phase, t.buf, t.offset)) = some (.write, [0x4B], 1#64) := by decide

/-- M5: bytes at `LEN` and above are not touched. -/
theorem test_mask_leaves_tail :
    after (exec .mask { inRun .mask with len := 2#32, buf := [0x00, 0x01, 0x77] }) State.buf =
      some [0xC3, 0x4B, 0x77] := by decide

/-- T10: only `LEN` bytes are handed over. -/
theorem test_write_ok :
    after (exec .write { inRun .write with len := 3#32, buf := [0xC3, 0x4B, 0xD4, 0x99], snkAnswers := [.ok] })
      (fun t => (t.phase, t.snk)) = some (.adv, [0xC3, 0x4B, 0xD4]) := by decide

/-- T11. -/
theorem test_write_fails :
    after (exec .write { inRun .write with
      len := 3#32, buf := [0xC3, 0x4B, 0xD4], snk := [0xAA], snkAnswers := [.fail 0x1C#32 2] })
      (fun t => (statusWord t, t.iocode, t.snk)) = some (0xA7#32, 0x1C#32, [0xAA, 0xC3, 0x4B]) := by decide

/-- T15: the carry goes into the high half. -/
theorem test_adv_carry :
    after (exec .adv { inRun .adv with offset := 0xFFFFFFFF#64, len := 1#32 })
      (fun t => (t.phase, t.offset, highHalf t.offset)) = some (.read, 0x100000000#64, 1#32) := by decide

/-- T16: the wrap is silent. -/
theorem test_adv_wraps :
    after (exec .adv { inRun .adv with offset := BitVec.ofNat 64 (2 ^ 64 - 1), len := 2#32 }) State.offset =
      some 1#64 := by decide

/-- E5: a reserved word is reported before a zero CHUNK. -/
theorem test_reserved_word :
    after (step { atRest with chunk := 0#32, offset := 3#64, script := [lineMove (.cmd 3#32)] })
      (fun t => (statusWord t, t.offset, t.binding)) = some (0x37#32, 3#64, .bound) := by decide

/-- RG3 and the value of POS. -/
theorem test_write_pos_hi :
    after (step { atRest with pos := 0x7#64, script := [lineMove (.wr .posHi 0x12345678#32)] }) State.pos =
      some 0x1234567800000007#64 := by decide

/-- RG4. -/
theorem test_write_offset_ignored :
    after (step { atRest with offset := 9#64, script := [lineMove (.wr .offsetLo 0x55#32)] }) State.offset =
      some 9#64 := by decide

/-- RG8. -/
theorem test_bad_access : refusal (step { atRest with script := [.read 0x02#32 32] }) = some .notAnAccess := by decide

/-- The reset vectors of section 5. -/
theorem test_read_chunk_after_reset :
    after (step { State.reset with script := [lineMove (.rd .chunk)] }) State.reads = some [0x00100000#32] := by decide

/-- RG9: reset during a run. -/
theorem test_reset_in_run :
    after (step { inRun .write with
      snk := [0xAA], offset := 4#64, chunk := 64#32, resetLine := [true] })
      (fun t => (statusWord t, t.chunk, t.offset, t.snk, t.src)) =
      some (0x00#32, 0x00100000#32, 0#64, [0xAA], [0x00, 0x01, 0x02]) := by decide

/-- U10: aliasing streams. -/
theorem test_aliased_refused :
    refusal (exec .xform { atRest with binding := .aliased }) = some .streamsAlias := by decide

/-- The encoding of `transform 64` (P2). -/
theorem test_script_encoding :
    (scriptTransform 64#32).flatMap lineEncoding =
      [.w 0x08#32 0x00000040#32, .w 0x00#32 0x00000001#32] := by decide

/-- Every table word, placed after reset, is what the very next step runs. -/
theorem test_placed_words_run :
    ([(32, 1), (32, 2), (8, 0), (8, 1), (8, 2), (8, 3), (8, 4), (8, 5), (8, 6), (8, 7)].all fun (p : Nat × Nat) =>
      (after (step (State.reset.withFetchWord p.1 p.2)) (fun _ => ())).isSome) = true := by decide

/-! Witnesses: for each statement with hypotheses, states and operands that meet them all. -/

theorem witness_StepRunsDecodedInstruction_phase :
    (inRun .mask).resetLine.head? ≠ some true ∧ ((inRun .mask).phase.resting = true → (inRun .mask).script = []) ∧
    ({ atRest with resetLine := [false, true] } : State).resetLine.head? ≠ some true ∧
    (atRest.phase.resting = true → atRest.script = []) := by decide

/-- `atRest` with one host move to make. -/
def moving (m : HostMove) : State := { atRest with script := [m] }

theorem moving_ready (m : HostMove) :
    (moving m).resetLine.head? ≠ some true ∧ (moving m).phase.resting = true ∧ (moving m).script = m :: [] :=
  ⟨nofun, rfl, rfl⟩

theorem witness_StepRunsDecodedInstruction_command :
    ∀ v ∈ [0x00000001#32, 0x00000002#32],
      (moving (.write 0x00#32 32 v)).resetLine.head? ≠ some true ∧
      (moving (.write 0x00#32 32 v)).phase.resting = true ∧
      (moving (.write 0x00#32 32 v)).script = .write 0x00#32 32 v :: [] ∧
      (decode (.cmd v) = .command .xform ∨ decode (.cmd v) = .command .maskq) :=
  fun v hv => ⟨(moving_ready _).1, rfl, rfl, by
    simp only [List.mem_cons, List.not_mem_nil, or_false] at hv
    rcases hv with rfl | rfl <;> decide⟩

theorem witness_PlacedWordRunsNext :
    decodeTableWord 32 2 = some .maskq ∧ decodeTableWord 8 7 = some .fail := by decide

theorem witness_XformAccepted :
    ∀ p ∈ [Phase.idle, .done, .fail],
      ({ atRest with phase := p } : State).phase.resting = true ∧
      ({ atRest with phase := p } : State).binding = .bound := by decide

theorem witness_CommandsRefused :
    ({ atRest with binding := .unbound } : State).phase.resting = true ∧
    ({ atRest with binding := .unbound } : State).binding = .unbound ∧
    ({ atRest with binding := .aliased } : State).phase.resting = true ∧
    ({ atRest with binding := .aliased } : State).binding = .aliased ∧
    (inRun .read).phase.resting = false := by decide

theorem witness_MaskqResult :
    ({ atRest with pos := BitVec.ofNat 64 (2 ^ 64 - 1) } : State).phase.resting = true := by decide

theorem witness_ReservedWordRaisesBadCommand :
    ∀ v ∈ [0x00000000#32, 0x00000003#32, 0x00000101#32, 0xFFFFFFFF#32],
      (moving (.write 0x00#32 32 v)).resetLine.head? ≠ some true ∧
      (moving (.write 0x00#32 32 v)).phase.resting = true ∧
      (moving (.write 0x00#32 32 v)).script = .write 0x00#32 32 v :: [] ∧
      v ≠ 0x00000001#32 ∧ v ≠ 0x00000002#32 :=
  fun v hv => ⟨(moving_ready _).1, rfl, rfl, by
    simp only [List.mem_cons, List.not_mem_nil, or_false] at hv
    rcases hv with rfl | rfl | rfl | rfl <;> decide⟩

theorem witness_InitResult :
    ({ inRun .init with chunk := 1#32 } : State).chunk ≠ 0#32 ∧
    ({ inRun .init with chunk := 0xFFFFFFFF#32 } : State).chunk ≠ 0#32 ∧
    ({ inRun .init with chunk := 0#32 } : State).chunk = 0#32 := by decide

/-- A state in READ whose source port will answer `a`. -/
def reading (a : SrcAnswer) : State := { inRun .read with srcAnswers := [a] }

theorem witness_ReadResult_delivers :
    ∀ k ∈ [0, 1, 3, 4, 5], nextSrcAnswer (reading (.deliver k)) = .deliver k ∧
      (reading (.deliver k)).chunk ≠ 0#32 ∧ srcHeld (reading (.deliver k)).chunk (reading (.deliver k)) ≠ [] := by decide

/-- An endless source with nothing listed. -/
theorem witness_ReadResult_endless :
    nextSrcAnswer { reading (.deliver 2) with src := [], endless := true } = .deliver 2 ∧
    ({ reading (.deliver 2) with src := [], endless := true } : State).chunk ≠ 0#32 ∧
    (srcHeld 4#32 { reading (.deliver 2) with src := [], endless := true }).length = 4 := by decide

theorem witness_ReadResult_ends :
    nextSrcAnswer { reading (.deliver 1) with src := [] } = .deliver 1 ∧
    srcHeld 4#32 { reading (.deliver 1) with src := [] } = [] := by decide

theorem witness_ReadResult_fails : nextSrcAnswer (reading (.fail 5#32)) = .fail 5#32 := by decide

theorem witness_SourcePortContract :
    (4#32 ≠ 0#32 ∧ srcReply 4#32 (reading (.deliver 2)) = .ok [0x00, 0x01]) ∧
    (1 ≤ 3 ∧ 3 ≤ (4#32).toNat ∧ 3 ≤ (srcHeld 4#32 (reading (.deliver 3))).length) ∧
    (reading (.deliver 3)).endless = false ∧ ({ reading (.deliver 3) with endless := true } : State).endless = true := by
  decide

theorem witness_MaskResult :
    0 < ({ inRun .mask with len := 1#32 } : State).len.toNat ∧ ({ inRun .mask with len := 1#32 } : State).len.toNat ≤ 1 := by
  decide

/-- A state in WRITE with a chunk of three bytes whose sink port will answer `a`. -/
def writing (a : SnkAnswer) : State :=
  { inRun .write with len := 3#32, buf := [0xC3, 0x4B, 0xD4], snkAnswers := [a] }

theorem witness_WriteResult :
    2 < (writing .ok).len.toNat ∧ nextSnkAnswer (writing .ok) = .ok ∧
    nextSnkAnswer (writing (.fail 0x1C#32 0)) = .fail 0x1C#32 0 ∧
    nextSnkAnswer (writing (.fail 0x1C#32 3)) = .fail 0x1C#32 3 := by decide

theorem witness_UnansweredPortWaits :
    nextSrcAnswer (reading .wait) = .wait ∧ nextSnkAnswer (writing .wait) = .wait := by decide

/-- A finished run whose failure is `f`. -/
def failed (f : Failure) : State := raise f atRest

theorem inv_of_failed (f : Failure) (h : f ≠ .config) : (failed f).Inv := by
  cases f
  · exact absurd rfl h
  all_goals
    constructor <;> simp [failed, failureKind, failureSite, failureCode, Phase.resting, Phase.holdsChunk]

theorem witness_StatusInRest_idle : atRest.Inv ∧ atRest.phase.resting = true ∧ atRest.phase = .idle :=
  ⟨by constructor <;> decide, by decide, by decide⟩

theorem witness_StatusInRest_done :
    ({ atRest with phase := .done } : State).Inv ∧ ({ atRest with phase := .done } : State).phase.resting = true :=
  ⟨by constructor <;> decide, by decide⟩

theorem witness_StatusInRest_config :
    (failed .config).Inv ∧ (failed .config).phase = .fail ∧ (failed .config).errkind = .configError :=
  ⟨by constructor <;> decide, by decide, by decide⟩

theorem witness_StatusInRest_read :
    (failed (.readFailed 5#32)).Inv ∧ (failed (.readFailed 5#32)).phase = .fail ∧
    (failed (.readFailed 5#32)).errkind = .ioFailure ∧ (failed (.readFailed 5#32)).errsite = 0#1 :=
  ⟨inv_of_failed _ (by decide), by decide, by decide, by decide⟩

theorem witness_StatusInRest_write :
    (failed (.writeFailed 5#32)).Inv ∧ (failed (.writeFailed 5#32)).phase = .fail ∧
    (failed (.writeFailed 5#32)).errkind = .ioFailure ∧ (failed (.writeFailed 5#32)).errsite = 1#1 :=
  ⟨inv_of_failed _ (by decide), by decide, by decide, by decide⟩

theorem witness_StatusInRest_badCommand :
    (failed .badCommand).Inv ∧ (failed .badCommand).phase = .fail ∧ (failed .badCommand).errkind = .badCommand :=
  ⟨inv_of_failed _ (by decide), by decide, by decide⟩

theorem witness_RegisterReads :
    ∀ off ∈ [0x00#32, 0x04#32, 0x08#32, 0x0C#32, 0x10#32, 0x14#32, 0x18#32, 0x1C#32, 0x20#32, 0x24#32, 0xFC#32],
      (moving (.read off 32)).resetLine.head? ≠ some true ∧ (moving (.read off 32)).phase.resting = true ∧
      (moving (.read off 32)).script = .read off 32 :: [] ∧ off.toNat % 4 = 0 ∧ off.toNat ≤ 0xFC :=
  fun off h => ⟨(moving_ready _).1, rfl, rfl, by
    simp only [List.mem_cons, List.not_mem_nil, or_false] at h
    rcases h with rfl | rfl | rfl | rfl | rfl | rfl | rfl | rfl | rfl | rfl | rfl <;> decide⟩

theorem witness_RegisterWrites :
    ∀ off ∈ [0x04#32, 0x08#32, 0x0C#32, 0x10#32, 0x14#32, 0x18#32, 0x1C#32, 0x20#32, 0x24#32, 0xFC#32],
      (moving (.write off 32 0x55#32)).resetLine.head? ≠ some true ∧
      (moving (.write off 32 0x55#32)).phase.resting = true ∧
      (moving (.write off 32 0x55#32)).script = .write off 32 0x55#32 :: [] ∧
      off.toNat % 4 = 0 ∧ off.toNat ≤ 0xFC ∧ off ≠ 0x00#32 :=
  fun off h => ⟨(moving_ready _).1, rfl, rfl, by
    simp only [List.mem_cons, List.not_mem_nil, or_false] at h
    rcases h with rfl | rfl | rfl | rfl | rfl | rfl | rfl | rfl | rfl | rfl <;> decide⟩

theorem witness_NonAccessRefused :
    ∀ a ∈ [(⟨0x02#32, 32⟩ : Access), ⟨0x100#32, 32⟩, ⟨0xFD#32, 32⟩, ⟨0x04#32, 8⟩],
      (moving (.write a.off a.width 0#32)).resetLine.head? ≠ some true ∧
      (moving (.write a.off a.width 0#32)).phase.resting = true ∧
      Access.wellFormed ⟨a.off, a.width⟩ = false ∧
      (moving (.write a.off a.width 0#32)).script = .write a.off a.width 0#32 :: [] ∧
      (moving (.read a.off a.width)).script = .read a.off a.width :: [] := by decide

theorem witness_BindConnectsStreams :
    (moving (.bind [0x01] [])).resetLine.head? ≠ some true ∧ (moving (.bind [0x01] [])).phase.resting = true ∧
    (moving (.bind [0x01] [])).script = .bind [0x01] [] :: [] ∧
    (moving (.bindEndless [0x01] [])).script = .bindEndless [0x01] [] :: [] := by decide

theorem witness_BindingLastsOneRun_run :
    ∃ t, (inRun .mask).resetLine.head? ≠ some true ∧ step (inRun .mask) = .next t ∧
      (inRun .mask).phase.resting = false :=
  ⟨_, by decide, rfl, by decide⟩

/-- The run ends in the step: the stream has ended. -/
theorem witness_BindingLastsOneRun_end :
    ∃ t, ({ reading (.deliver 1) with src := [] } : State).resetLine.head? ≠ some true ∧
      step { reading (.deliver 1) with src := [] } = .next t ∧ t.phase.resting = true :=
  ⟨_, by decide, rfl, by decide⟩

/-- One move of each kind. -/
theorem witness_BindingLastsOneRun_rest :
    ∀ m ∈ [HostMove.write 0x08#32 32 1#32, .read 0x04#32 32, .bind [] [], .bindEndless [] [], .bindAliased [], .reset],
      (moving m).resetLine.head? ≠ some true ∧ (moving m).phase.resting = true ∧
      (after (step (moving m)) (fun _ => ())).isSome = true := by decide

theorem witness_BindingLastsOneRun_reset :
    ∃ t, ({ inRun .mask with resetLine := [true] } : State).resetLine.head? = some true ∧
      step { inRun .mask with resetLine := [true] } = .next t :=
  ⟨_, by decide, rfl⟩

theorem witness_HostBlockedInRun :
    ({ inRun .read with resetLine := [true] } : State).phase.resting = false ∧
    (inRun .adv).phase.resting = false ∧ (inRun .adv).resetLine.head? ≠ some true := by decide

theorem witness_ResetInput :
    ({ inRun .mask with resetLine := [true] } : State).resetLine.head? = some true ∧
    (moving .reset).phase.resting = true ∧ (moving .reset).script.head? = some .reset := by decide

theorem witness_RestsUntilHostMoves :
    ({ atRest with phase := .done, resetLine := [false] } : State).phase.resting = true ∧
    ({ atRest with phase := .done, resetLine := [false] } : State).script = [] ∧
    ({ atRest with phase := .done, resetLine := [false] } : State).resetLine.head? ≠ some true := by decide

/-- A next state in each phase, and on each kind of move. -/
theorem witness_PhaseTransitions :
    (∀ p ∈ [Phase.idle, .init, .read, .mask, .write, .adv, .done, .fail],
      (after (step { inRun p with srcAnswers := [.deliver 1], snkAnswers := [.ok] }) (fun _ => ())).isSome = true) ∧
    (∀ m ∈ [HostMove.write 0x00#32 32 1#32, .write 0x00#32 32 2#32, .write 0x00#32 32 3#32, .write 0x08#32 32 1#32,
        .read 0x04#32 32, .bind [] [], .bindEndless [] [], .bindAliased [], .reset],
      (after (step (moving m)) (fun _ => ())).isSome = true) := by decide

/-- The rows of R148 that the states above do not take, and the waits of R195. -/
theorem witness_PhaseTransitions_rows :
    after (step { inRun .write with resetLine := [true] }) State.phase = some .idle ∧
    after (step { inRun .init with chunk := 0#32 }) State.phase = some .fail ∧
    after (step (reading .wait)) State.phase = some .read ∧
    after (step (reading (.fail 5#32))) State.phase = some .fail ∧
    after (step { reading (.deliver 1) with src := [] }) State.phase = some .done ∧
    after (step (writing .wait)) State.phase = some .write ∧
    after (step (writing (.fail 5#32 1))) State.phase = some .fail := by decide

/-- Steps that do change OFFSET, CHUNK, POS, MASKVAL, src and snk. -/
theorem witness_RegisterWriters :
    (∃ t, step { inRun .adv with len := 1#32 } = .next t ∧ t.offset ≠ (inRun .adv).offset) ∧
    (∃ t, step (moving (.write 0x08#32 32 1#32)) = .next t ∧ t.chunk ≠ (moving (.write 0x08#32 32 1#32)).chunk) ∧
    (∃ t, step (moving (.write 0x18#32 32 1#32)) = .next t ∧ t.pos ≠ (moving (.write 0x18#32 32 1#32)).pos) ∧
    (∃ t, step (moving (.write 0x00#32 32 2#32)) = .next t ∧ t.maskval ≠ (moving (.write 0x00#32 32 2#32)).maskval) ∧
    (∃ t, step (reading (.deliver 1)) = .next t ∧ t.src ≠ (reading (.deliver 1)).src) ∧
    (∃ t, step (writing .ok) = .next t ∧ t.snk ≠ (writing .ok).snk) :=
  ⟨⟨_, rfl, by decide⟩, ⟨_, rfl, by decide⟩, ⟨_, rfl, by decide⟩, ⟨_, rfl, by decide⟩, ⟨_, rfl, by decide⟩,
    ⟨_, rfl, by decide⟩⟩

theorem witness_ErrorFieldsSticky :
    ∃ t, (writing (.fail 5#32 1)).resetLine.head? ≠ some true ∧ (writing (.fail 5#32 1)).script.head? ≠ some .reset ∧
      step (writing (.fail 5#32 1)) = .next t ∧ t.errkind ≠ (writing (.fail 5#32 1)).errkind :=
  ⟨_, by decide, by decide, rfl, by decide⟩

theorem witness_ExecFrame :
    ∀ i ∈ [Instr.idle, .init, .read, .mask, .write, .adv, .done, .fail, .xform, .maskq],
      (after (exec i atRest) (fun _ => ())).isSome = true := by decide

/-- A run in WRITE that has read and masked one chunk from the first byte. -/
def midRun : State :=
  { writing .ok with src := [], portLog := [.srcRead 4#32 [0x00, 0x01, 0x02]] }

theorem witness_InvKept : ∃ t, midRun.Inv ∧ step midRun = .next t :=
  ⟨_, by constructor <;> decide, rfl⟩

theorem witness_PortOrderKept : ∃ t, midRun.PortOrder ∧ step midRun = .next t :=
  ⟨_, by constructor <;> decide, rfl⟩

theorem witness_MaskedStreamKept : ∃ t, midRun.PortOrder ∧ midRun.MaskedStream ∧ step midRun = .next t :=
  ⟨_, by constructor <;> decide, by constructor <;> decide, rfl⟩

/-! Runs. -/

/-- A bound pair at rest, two bytes a chunk, with the given answers of the ports. -/
def ready (srcs : List SrcAnswer) (snks : List SnkAnswer) : State :=
  { atRest with chunk := 2#32, srcAnswers := srcs, snkAnswers := snks }

/-- `ready` after acceptance. -/
def accepted (srcs : List SrcAnswer) (snks : List SnkAnswer) : State := { ready srcs snks with phase := .init }

theorem ready_ordered (srcs : List SrcAnswer) (snks : List SnkAnswer) : (ready srcs snks).PortOrder := by
  constructor <;> simp [ready, atRest, State.reset, callsAlternate]

theorem witness_RunResult :
    ∃ s s1 t, Transforms s s1 t ∧ s.PortOrder ∧ t.phase = .done :=
  ⟨ready (referenceSource 3) (referenceSink 2), accepted (referenceSource 3) (referenceSink 2), _,
    ⟨rfl, by decide, 10, rfl⟩, ready_ordered _ _, by decide⟩

theorem witness_FailedRunResult_config :
    ∃ s s1 t, Transforms s s1 t ∧ s.PortOrder ∧ t.phase = .fail ∧ t.errkind = .configError :=
  ⟨{ ready [] [] with chunk := 0#32 }, { accepted [] [] with chunk := 0#32 }, _,
    ⟨rfl, by decide, 1, rfl⟩, by constructor <;> decide, by decide, by decide⟩

theorem witness_FailedRunResult_read :
    ∃ s s1 t, Transforms s s1 t ∧ s.PortOrder ∧ t.phase = .fail ∧ t.errkind = .ioFailure ∧ t.errsite = 0#1 :=
  ⟨ready [.deliver 2, .fail 5#32] [.ok], accepted [.deliver 2, .fail 5#32] [.ok], _,
    ⟨rfl, by decide, 6, rfl⟩, ready_ordered _ _, by decide, by decide, by decide⟩

/-- The second chunk fails: OFFSET counts the first one only. -/
theorem witness_FailedRunResult_write :
    ∃ s s1 t, Transforms s s1 t ∧ s.PortOrder ∧ t.phase = .fail ∧ t.errkind = .ioFailure ∧ t.errsite = 1#1 ∧
      t.offset = 2#64 ∧ t.len = 1#32 :=
  ⟨ready [.deliver 2, .deliver 1] [.ok, .fail 5#32 1], accepted [.deliver 2, .deliver 1] [.ok, .fail 5#32 1], _,
    ⟨rfl, by decide, 8, rfl⟩, ready_ordered _ _, by decide, by decide, by decide, by decide, by decide⟩

/-- Two cuts of one input. -/
theorem witness_ChunkingInvariance :
    ∃ s s1 t s' s1' t', Transforms s s1 t ∧ Transforms s' s1' t' ∧ s.PortOrder ∧ s'.PortOrder ∧
      t.phase = .done ∧ t'.phase = .done ∧ s.src = s'.src ∧ s.snk = s'.snk :=
  ⟨ready (referenceSource 3) (referenceSink 2), accepted (referenceSource 3) (referenceSink 2), _,
    ready [.deliver 1, .deliver 2, .deliver 1] [.ok, .wait, .ok], accepted [.deliver 1, .deliver 2, .deliver 1] [.ok, .wait, .ok], _,
    ⟨rfl, by decide, 10, rfl⟩, ⟨rfl, by decide, 11, rfl⟩, ready_ordered _ _, ready_ordered _ _,
    by decide, by decide, rfl, rfl⟩

/-- The second run's input is the first run's output, `C3 4B D4` (P1). -/
theorem witness_RoundTrip :
    ∃ s s1 t s' s1' t', Transforms s s1 t ∧ Transforms s' s1' t' ∧ s.PortOrder ∧ s'.PortOrder ∧
      t.phase = .done ∧ t'.phase = .done ∧ s.snk = [] ∧ s'.snk = [] ∧ s'.src = t.snk :=
  ⟨ready (referenceSource 3) (referenceSink 2), accepted (referenceSource 3) (referenceSink 2), _,
    { ready (referenceSource 3) (referenceSink 2) with src := [0xC3, 0x4B, 0xD4] },
    { accepted (referenceSource 3) (referenceSink 2) with src := [0xC3, 0x4B, 0xD4] }, _,
    ⟨rfl, by decide, 10, rfl⟩, ⟨rfl, by decide, 10, rfl⟩, ready_ordered _ _, by constructor <;> decide,
    by decide, by decide, rfl, rfl, by decide⟩

theorem witness_EmptyInput :
    ∃ s s1 t, Transforms s s1 t ∧ s.PortOrder ∧ s.src = [] ∧ t.phase = .done :=
  ⟨{ ready (referenceSource 1) [] with src := [] }, { accepted (referenceSource 1) [] with src := [] }, _,
    ⟨rfl, by decide, 2, rfl⟩, by constructor <;> decide, rfl, by decide⟩

theorem witness_RunTerminates :
    ∃ s s1, exec .xform s = .next s1 ∧ true ∉ s.resetLine ∧ s.chunk ≠ 0#32 ∧ s.endless = false ∧
      srcKeepsAnswering (s.src.length + 1) s.srcAnswers ∧ snkKeepsAnswering s.src.length s.snkAnswers :=
  ⟨ready (.wait :: referenceSource 4) (.wait :: referenceSink 3),
    accepted (.wait :: referenceSource 4) (.wait :: referenceSink 3), rfl, by decide, by decide, rfl,
    ⟨by simp [ready, referenceSource], by decide⟩, ⟨by simp [ready, referenceSink], by decide⟩⟩

/-- A run on an endless source ends only in a failure. -/
theorem witness_EndlessRunGoesOn_ended :
    ∃ s s1 t, Transforms s s1 t ∧ s.endless = true :=
  ⟨{ ready [.deliver 2, .fail 5#32] [.ok] with endless := true },
    { accepted [.deliver 2, .fail 5#32] [.ok] with endless := true }, _, ⟨rfl, by decide, 6, rfl⟩, rfl⟩

theorem witness_EndlessRunGoesOn_running :
    ∃ s s1, exec .xform s = .next s1 ∧ true ∉ s.resetLine ∧ s.chunk ≠ 0#32 ∧ s.endless = true ∧
      srcKeepsAnswering 9 s.srcAnswers ∧ snkKeepsAnswering 9 s.snkAnswers :=
  ⟨{ ready (referenceSource 9) (referenceSink 9) with endless := true },
    { accepted (referenceSource 9) (referenceSink 9) with endless := true }, rfl, by decide, by decide, rfl,
    ⟨by simp [ready, referenceSource], by decide⟩, ⟨by simp [ready, referenceSink], by decide⟩⟩

/-- The second state holds what some earlier failed run left. -/
theorem witness_NoLeakBetweenRuns :
    ∃ s s' s1 s1' t, exec .xform s = .next s1 ∧ exec .xform s' = .next s1' ∧ RunEnds s1 t ∧
      s'.chunk = s.chunk ∧ s'.src = s.src ∧ s'.endless = s.endless ∧ s'.snk = s.snk ∧ s'.srcAnswers = s.srcAnswers ∧
      s'.snkAnswers = s.snkAnswers ∧ s'.resetLine = s.resetLine ∧ s'.draws = s.draws ∧ s'.portLog = s.portLog ∧
      s'.offset ≠ s.offset ∧ s'.buf ≠ s.buf ∧ s'.errkind ≠ s.errkind :=
  ⟨ready (referenceSource 3) (referenceSink 2),
    { ready (referenceSource 3) (referenceSink 2) with
      phase := .fail, errkind := .ioFailure, iocode := 9#32, offset := 77#64, len := 5#32, buf := [0xEE] },
    accepted (referenceSource 3) (referenceSink 2), _, _, rfl, rfl, ⟨10, rfl⟩,
    rfl, rfl, rfl, rfl, rfl, rfl, rfl, rfl, rfl, by decide, by decide, by decide⟩

end Sys2Proof.Tests
end

section
namespace Sys2Proof.Machine

/-- Settles O33: each value of R41 that the spec states is the one `State.reset` writes out; `CHUNK` is the default of
`Config`. -/
theorem resetValues : Obligations.ResetValues :=
  ⟨rfl, rfl, rfl, rfl, rfl, rfl, rfl⟩

end Sys2Proof.Machine
end

section
namespace Sys2Proof.Machine

/-! Command words (R81, R82). -/

/-- The two fields of R81, `ZERO` and `OPC`, are the whole command word. -/
theorem cmdWord_eq_iff_fields (v : Word) (c : Byte) :
    v = 0#24 ++ c ↔ v.extractLsb' 8 24 = 0#24 ∧ v.extractLsb' 0 8 = c := by
  have hv : v.extractLsb' 8 24 ++ v.extractLsb' 0 8 = v :=
    (BitVec.extractLsb'_append_extractLsb'_eq_extractLsb' rfl).trans BitVec.extractLsb'_eq_self
  constructor
  · rintro rfl
    exact ⟨BitVec.extractLsb'_append_eq_left, BitVec.extractLsb'_append_eq_right⟩
  · rintro ⟨hz, hc⟩
    rw [← hv, hz, hc]

/-- Settles O6, from the two fields of the word: `ZERO` decides first, then `OPC`. -/
theorem commandDecoding : Obligations.CommandDecoding := by
  intro v
  have hx : v = 0x00000001#32 ↔ _ := cmdWord_eq_iff_fields v 0x01#8
  have hm : v = 0x00000002#32 ↔ _ := cmdWord_eq_iff_fields v 0x02#8
  unfold decodeCmd
  by_cases hz : v.extractLsb' 8 24 = 0#24
  · simp only [hx, hm, hz, ne_eq, not_true_eq_false, if_false, true_and]
  · simp only [hx, hm, hz, ne_eq, not_false_eq_true, if_true, false_and, if_false]

/-! A step in which the host writes to `CMD` (R83, R87, R217). -/

/-- Without reset the step of a resting phase is the host's next move, if there is one (R217). -/
theorem step_of_hostMove {s : State} {m : HostMove} {rest : List HostMove} (hr : s.resetLine.head? ≠ some true)
    (hp : s.phase.resting = true) (hs : s.script = m :: rest) :
    step s = hostMove m { usedLevel s with script := rest } := by
  simp only [step, stepBoundary, if_neg hr, advance, usedLevel_phase, if_pos hp, usedLevel_script, hs]

/-- Writing to offset 0 submits the word as a command (R32, R83). -/
theorem hostMove_write_cmd (v : Word) (s : State) : hostMove (.write 0x00#32 32 v) s = submit v s := by
  simp only [hostMove, hostWrite, regAt_cmd.mpr ⟨rfl, rfl⟩]

/-- A word other than the two commands raises BadCommand when submitted (R82, R87). -/
theorem submit_of_reserved {v : Word} (h1 : v ≠ 0x00000001#32) (h2 : v ≠ 0x00000002#32) (s : State) :
    submit v s = .next (raise .badCommand s) := by
  have hd : decode (.cmd v) = .reserved v := by
    rw [decode, commandDecoding v, if_neg h1, if_neg h2]
  simp only [submit, hd]

/-- Settles O14: the step is the host's write, which submits a reserved word, and that only raises BadCommand. -/
theorem reservedWordRaisesBadCommand : Obligations.ReservedWordRaisesBadCommand := by
  intro s v rest hr hp hs h1 h2
  rw [step_of_hostMove hr hp hs, hostMove_write_cmd, submit_of_reserved h1 h2]
  rfl

end Sys2Proof.Machine
end

section
namespace Sys2Proof.Machine

/-- MASKQ is accepted in every resting phase; its one effect is the read of the Key Table at `POS` (R104). -/
theorem execMaskq_of_resting {s : State} (h : s.phase.resting = true) :
    execMaskq s = .next { s with maskval := mask s.pos.toNat } :=
  if_pos h

/-- Settles O13: word 2 is MASKQ by the decoding of command words (O6), and a resting phase opens the guard of R83. -/
theorem maskqResult : Obligations.MaskqResult :=
  ⟨(commandDecoding 0x00000002#32).trans rfl, fun _ h => execMaskq_of_resting h⟩

end Sys2Proof.Machine
end

section
namespace Sys2Proof.Machine

/-! Masking in place (R122, R126). -/

/-- The index of a buffer byte enters 64-bit arithmetic as it is (R86). -/
theorem zext64_ofNat {i : Nat} (h : i < 2 ^ 32) : zext64 (BitVec.ofNat 32 i) = BitVec.ofNat 64 i := by
  apply BitVec.eq_of_toNat_eq
  rw [zext64, BitVec.toNat_setWidth, BitVec.toNat_ofNat, Nat.mod_eq_of_lt h, BitVec.toNat_ofNat]

@[simp] theorem maskbuf_length (o : Position) (bs : List Byte) : (maskbuf o bs).length = bs.length :=
  List.length_mapIdx

theorem maskbuf_getElem? (o : Position) (bs : List Byte) (i : Nat) :
    (maskbuf o bs)[i]? = bs[i]?.map (xorb · (o + BitVec.ofNat 64 i).toNat) :=
  List.getElem?_mapIdx

/-- The masked chunk takes exactly `BUF[0 .. LEN-1]`. -/
theorem maskbuf_bufChunk_length (o : Position) (s : State) : (maskbuf o (bufChunk s)).length = s.len.toNat := by
  rw [maskbuf_length, bufChunk_length]

/-- Rewriting the front of the buffer leaves every byte behind it (R122, R143). -/
theorem bufByte_of_front_rewritten {s t : State} {bs : List Byte} (hb : t.buf = bs ++ s.buf.drop bs.length)
    (hg : t.bufGen = s.bufGen) {i : Nat} (h : bs.length ≤ i) : bufByte t i = bufByte s i := by
  simp only [bufByte, hb, hg, List.getD_eq_getElem?_getD, List.getElem?_append_right h, List.getElem?_drop,
    Nat.add_sub_cancel' h]

/-- A byte of a chunk that is another one masked at `OFFSET` (R122, R126). -/
theorem bufByte_of_bufChunk_eq_maskbuf {s t : State} {o : Position} (hl : t.len = s.len)
    (hc : bufChunk t = maskbuf o (bufChunk s)) {i : Nat} (h : i < s.len.toNat) :
    bufByte t i = bufByte s i ^^^ mask (o + zext64 (BitVec.ofNat 32 i)).toNat := by
  have hi : some (bufByte t i) = some (xorb (bufByte s i) (o + BitVec.ofNat 64 i).toNat) := by
    rw [← bufChunk_getElem? t (hl ▸ h), hc, maskbuf_getElem?, bufChunk_getElem? s h, Option.map_some]
  rw [zext64_ofNat (h.trans s.len.isLt)]
  exact Option.some.inj hi

/-- MASK writes the masked chunk over the front of the buffer and moves to WRITE (R122). -/
theorem exec_mask (s : State) : ∃ t, exec .mask s = .next t ∧
    t.buf = maskbuf s.offset (bufChunk s) ++ s.buf.drop (maskbuf s.offset (bufChunk s)).length ∧
    t = { s with buf := t.buf, phase := .write } := by
  refine ⟨_, rfl, ?_, rfl⟩
  rw [maskbuf_bufChunk_length]

/-- Settles O18: the front of the new buffer is the masked chunk, which read byte by byte gives the masked bytes; the tail is
the old one. -/
theorem maskResult : Obligations.MaskResult := by
  refine ⟨congrArg Decoded.command (decodePhase_phaseCode .mask), fun s => ?_⟩
  obtain ⟨t, he, hb, hf⟩ := exec_mask s
  have hl : t.len = s.len := by rw [hf]
  have hg : t.bufGen = s.bufGen := by rw [hf]
  have hlen := maskbuf_bufChunk_length s.offset s
  have hc : bufChunk t = maskbuf s.offset (bufChunk s) := bufChunk_eq_of_buf hb (hl ▸ hlen.symm)
  exact ⟨t, he, fun _ hi => bufByte_of_bufChunk_eq_maskbuf hl hc hi,
    fun _ hi => bufByte_of_front_rewritten hb hg (hlen.trans_le hi), hc, hf⟩

end Sys2Proof.Machine
end

section
namespace Sys2Proof.Machine

/-! The source port's answers as READ meets them (R53, R143). -/

theorem srcReply_of_deliver {s : State} {k : Nat} (n : Word) (h : nextSrcAnswer s = .deliver k) :
    srcReply n s = .ok ((srcHeld n s).take (readCount k n (srcHeld n s).length)) := by
  simp only [srcReply, h]

theorem srcLeft_of_deliver {s : State} {k : Nat} (n : Word) (h : nextSrcAnswer s = .deliver k) :
    srcLeft n s = (srcHeld n s).drop (readCount k n (srcHeld n s).length) := by
  simp only [srcLeft, h]

theorem srcReply_of_fail {s : State} {code : Word} (n : Word) (h : nextSrcAnswer s = .fail code) :
    srcReply n s = .failed code := by
  simp only [srcReply, h]

/-- READ asks for `CHUNK` bytes and acts on the port's answer (R143). -/
theorem exec_read_of_reply {s : State} {r : SrcReply} (h : srcReply s.chunk s = r) :
    exec .read s = .next (finishRead r (afterSrcRead s.chunk s)) :=
  h ▸ rfl

/-- An answer that is no failure leaves an endless source endless, and a finite one finite (R53, R195). -/
theorem afterSrcRead_endless_of_ok {n : Word} {s : State} {bs : List Byte} (h : srcReply n s = .ok bs) :
    (afterSrcRead n s).endless = s.endless :=
  srcEndless_of_not_failed (n := n) fun _ hf => SrcReply.noConfusion (h.symm.trans hf)

/-- A chunk goes to the front of `BUF`, its length to `LEN`, and `PHASE` to MASK (R143). -/
theorem exec_read_of_chunk {s : State} {bs : List Byte} (h : srcReply s.chunk s = .ok bs) (hne : bs ≠ []) :
    exec .read s = .next { s with
      buf := bs ++ s.buf.drop bs.length, len := BitVec.ofNat 32 bs.length
      src := srcLeft s.chunk s, phase := .mask
      srcAnswers := s.srcAnswers.tail, portLog := s.portLog ++ srcCall s.chunk s, draws := s.draws + 1 } := by
  obtain ⟨b, rest, rfl⟩ := List.exists_cons_of_ne_nil hne
  rw [exec_read_of_reply h, ← afterSrcRead_endless_of_ok h]
  rfl

/-- An empty answer ends the run: `LEN` is 0 and `PHASE` is DONE (R143). -/
theorem exec_read_of_end {s : State} (h : srcReply s.chunk s = .ok []) :
    exec .read s = .next { s with
      len := 0#32, src := srcLeft s.chunk s, phase := .done
      srcAnswers := s.srcAnswers.tail, portLog := s.portLog ++ srcCall s.chunk s, draws := s.draws + 1
      binding := .unbound } := by
  rw [exec_read_of_reply h, ← afterSrcRead_endless_of_ok h]
  rfl

/-- A source with nothing to deliver gives the empty answer and keeps nothing (R53). -/
theorem srcReply_srcLeft_of_held_nil {s : State} {k : Nat} {n : Word} (h : nextSrcAnswer s = .deliver k)
    (hh : srcHeld n s = []) : srcReply n s = .ok [] ∧ srcLeft n s = [] := by
  rw [srcReply_of_deliver n h, srcLeft_of_deliver n h, hh]
  exact ⟨congrArg SrcReply.ok List.take_nil, List.drop_nil⟩

theorem src_nil_of_srcHeld_nil {n : Word} {s : State} (h : srcHeld n s = []) : s.src = [] := by
  unfold srcHeld at h
  split at h
  · exact (List.append_eq_nil_iff.mp h).1
  · exact h

/-- Settles O16, by the port's answer: a chunk of `readCount` bytes, between 1 and what is asked and held; the empty answer
of a source that holds nothing; a failure. -/
theorem readResult : Obligations.ReadResult := by
  refine ⟨congrArg Decoded.command (decodePhase_phaseCode .read), fun s k hk hc hh => ?_, fun s k hk hh => ?_,
    fun s code hf => ?_⟩
  · have hpos := readCount_pos k hc (mt List.length_eq_zero_iff.mp hh)
    have hheld := readCount_le_held k s.chunk (srcHeld s.chunk s).length
    have hlen := List.length_take_of_le hheld
    have hne := List.ne_nil_of_length_pos (hlen ▸ hpos)
    refine ⟨_, _, exec_read_of_chunk (srcReply_of_deliver s.chunk hk) hne, hpos, readCount_le_asked k _ _, hheld,
      readCount_of_admissible, ?_⟩
    rw [hlen, srcLeft_of_deliver s.chunk hk]
  · obtain ⟨hr, hl⟩ := srcReply_srcLeft_of_held_nil hk hh
    refine ⟨_, exec_read_of_end hr, ?_⟩
    rw [hl, ← src_nil_of_srcHeld_nil hh]
  · exact ⟨_, exec_read_of_reply (srcReply_of_fail s.chunk hf), rfl⟩

end Sys2Proof.Machine
end

section
namespace Sys2Proof.Machine

/-! The sink port's answers as WRITE meets them (R54, R145). -/

theorem snkReply_of_ok {s : State} (h : nextSnkAnswer s = .ok) : snkReply s = .ok := by
  simp only [snkReply, h]

theorem snkReply_of_fail {s : State} {code : Word} {j : Nat} (h : nextSnkAnswer s = .fail code j) :
    snkReply s = .failed code := by
  simp only [snkReply, h]

theorem afterSinkWrite_snk_of_ok {s : State} (bs : List Byte) (h : nextSnkAnswer s = .ok) :
    (afterSinkWrite bs s).snk = s.snk ++ bs := by
  simp only [afterSinkWrite_snk, snkTakes, h]

theorem afterSinkWrite_snk_of_fail {s : State} {code : Word} {j : Nat} (bs : List Byte)
    (h : nextSnkAnswer s = .fail code j) : (afterSinkWrite bs s).snk = s.snk ++ bs.take j := by
  simp only [afterSinkWrite_snk, snkTakes, h]

/-- WRITE offers `BUF[0 .. LEN-1]` and acts on the port's answer (R145). -/
theorem exec_write_of_reply {s : State} {r : SnkReply} (h : snkReply s = r) :
    exec .write s = .next (finishWrite r (afterSinkWrite (bufChunk s) s)) :=
  h ▸ rfl

/-- Settles O19, by the port's answer: the chunk offered is `bufChunk`, byte for byte `BUF[0 .. LEN-1]`, and the sink grows by
all of it or by the front part that a failing port took. -/
theorem writeResult : Obligations.WriteResult := by
  refine ⟨congrArg Decoded.command (decodePhase_phaseCode .write),
    fun s => ⟨bufChunk_length s, fun _ => bufChunk_getElem? s⟩, fun s h => ?_, fun s code j h => ?_⟩
  · refine ⟨_, exec_write_of_reply (snkReply_of_ok h), ?_⟩
    rw [← afterSinkWrite_snk_of_ok (bufChunk s) h]
    rfl
  · refine ⟨_, exec_write_of_reply (snkReply_of_fail h), ?_⟩
    rw [← afterSinkWrite_snk_of_fail (bufChunk s) h]
    rfl

end Sys2Proof.Machine
end

section
namespace Sys2Proof.Machine

/-! The counters at the start and the end of a chunk (R142, R146). -/

theorem execInit_of_chunk {s : State} (h : s.chunk ≠ 0#32) :
    execInit s = .next { s with offset := 0#64, len := 0#32, phase := .read } :=
  congrArg Host.Outcome.next (if_neg h)

theorem execInit_of_zero_chunk {s : State} (h : s.chunk = 0#32) :
    execInit s = .next (release (raise .config { s with offset := 0#64, len := 0#32 })) :=
  congrArg Host.Outcome.next (if_pos h)

/-- Settles O15, by whether `CHUNK` is 0, which is all that INIT looks at. -/
theorem initResult : Obligations.InitResult :=
  ⟨congrArg Decoded.command (decodePhase_phaseCode .init), fun _ h => execInit_of_chunk h,
    fun _ h => ⟨_, execInit_of_zero_chunk h, rfl⟩⟩

/-- A position advances by a word's value, modulo 2^64 (R86, R146). -/
theorem add_zext64 (p : Position) (w : Word) : p + zext64 w = BitVec.ofNat 64 (p.toNat + w.toNat) := by
  apply BitVec.eq_of_toNat_eq
  rw [BitVec.toNat_add, zext64, BitVec.toNat_setWidth_of_le (by decide), BitVec.toNat_ofNat]

/-- Settles O22: the 64-bit sum with the widened `LEN` is the sum of the two values modulo 2^64. -/
theorem advResult : Obligations.AdvResult := by
  refine ⟨congrArg Decoded.command (decodePhase_phaseCode .adv), fun s => ?_⟩
  rw [← add_zext64]
  rfl

end Sys2Proof.Machine
end

section
namespace Sys2Proof.Machine

/-! `PHASE` after a host move and after the sequencer's step (R148). -/

/-- A register other than `CMD` does not stand at offset 0 (R30). -/
theorem off_ne_zero_of_regAt {off : Word} {width : Nat} {r : Reg} (h : regAt off width = some r) (hr : r ≠ .cmd) :
    off ≠ 0x00#32 := by
  rintro rfl
  have hw : width = 32 := by
    by_contra hw
    simp [regAt, hw] at h
  exact hr (Option.some.inj (h.symm.trans (regAt_cmd.mpr ⟨rfl, hw⟩)))

/-- Submitting a word: XFORM starts a run, MASKQ keeps the resting phase, a reserved word fails (R141, R104, R87). -/
theorem submit_phase {v : Word} {s t : State} (h : submit v s = .next t) :
    t.phase = if v = 0x00000001#32 then .init else if v = 0x00000002#32 then s.phase else .fail := by
  by_cases hx : v = 0x00000001#32
  · subst hx
    obtain ⟨-, -, rfl⟩ := execXform_cases h
    rfl
  · by_cases hm : v = 0x00000002#32
    · subst hm
      obtain ⟨-, rfl⟩ := execMaskq_cases h
      rfl
    · rw [submit_of_reserved hx hm] at h
      cases h
      rw [if_neg hx, if_neg hm, raise_phase]

/-- A register write changes `PHASE` only as a command (R32, R33, R35, R37). -/
theorem hostWrite_phase {off v : Word} {width : Nat} {s t : State} (h : hostWrite off width v s = .next t) :
    t.phase = if off = 0x00#32 then
      if v = 0x00000001#32 then .init else if v = 0x00000002#32 then s.phase else .fail
    else s.phase := by
  obtain ⟨rfl, -, h⟩ | ⟨r, hr, hc, rfl⟩ := hostWrite_cases h
  · rw [if_pos rfl, submit_phase h]
  · rw [if_neg (off_ne_zero_of_regAt hr hc), csrStore_frame]

theorem hostRead_phase {off : Word} {width : Nat} {s t : State} (h : hostRead off width s = .next t) :
    t.phase = s.phase := by
  obtain ⟨r, -, rfl⟩ := hostRead_cases h
  rfl

/-- INIT goes to READ, or fails on a zero `CHUNK` (R142). -/
theorem execInit_phase {s t : State} (h : execInit s = .next t) :
    t.phase = if s.chunk = 0#32 then .fail else .read := by
  obtain ⟨hc, rfl⟩ | ⟨hc, rfl⟩ := execInit_cases h
  · rw [if_pos hc]; rfl
  · rw [if_neg hc]

theorem srcReply_usedLevel (n : Word) (s : State) : srcReply n (usedLevel s) = srcReply n s := rfl

theorem snkReply_usedLevel (s : State) : snkReply (usedLevel s) = snkReply s := rfl

/-- Settles O36, by what a step can do: a reset; the host's move in a resting phase, by the kind of move; or the instruction
`PHASE` names, where the ports' answers decide for READ and WRITE and an idle host leaves a resting phase as it is. -/
theorem phaseTransitions : Obligations.PhaseTransitions := by
  intro s t h
  obtain ⟨hl, rfl⟩ | ⟨hl, hp, m, rest, hs, hm⟩ | ⟨hl, hs, he⟩ := step_cases h
  · rw [if_pos hl, applyReset_phase]
  · rw [if_neg hl, if_pos hp, hs]
    cases m with
    | write off width v => exact (hostWrite_phase hm :)
    | read off width => exact (hostRead_phase hm :)
    | bind | bindEndless | bindAliased | reset => cases hm; rfl
  · rw [if_neg hl]
    cases hp : s.phase with rw [hp] at he
    | idle | done | fail => rw [hs (by rw [hp]; rfl)]; cases he; exact hp
    | init => exact (execInit_phase he :)
    | read =>
      obtain ⟨hr, rfl⟩ | ⟨hr, rfl⟩ | ⟨b, bs, hr, rfl⟩ | ⟨code, hr, rfl⟩ := execRead_cases he
      all_goals
        rw [usedLevel_chunk, srcReply_usedLevel] at hr
        simp [Phase.resting, hr, hp]
    | write =>
      obtain ⟨hr, rfl⟩ | ⟨hr, rfl⟩ | ⟨code, hr, rfl⟩ := execWrite_cases he
      all_goals
        rw [snkReply_usedLevel] at hr
        simp [Phase.resting, hr, hp]
    | mask | adv => cases he; rfl

end Sys2Proof.Machine
end

section
namespace Sys2Proof.Machine

/-- Settles O24: `raise` is one update of the four fields of R185, and for each kind of failure `failureKind`, `failureSite` and
`failureCode` compute to the values recorded. -/
theorem raiseEntry : Obligations.RaiseEntry :=
  fun _ _ => ⟨rfl, rfl, rfl, rfl⟩

end Sys2Proof.Machine
end

section
namespace Sys2Proof.Machine

/-! Reset as a step (R210). -/

/-- With the reset input asserted the step is the reset, whatever the phase (R210). -/
theorem step_of_resetLine {s : State} (hl : s.resetLine.head? = some true) :
    step s = .next (applyReset (usedLevel s)) :=
  if_pos hl

/-- The script line `reset` of a resting phase is the same reset (R89, R210). -/
theorem step_of_resetMove {s : State} {rest : List HostMove} (hl : s.resetLine.head? ≠ some true)
    (hp : s.phase.resting = true) (hs : s.script = .reset :: rest) :
    step s = .next (applyReset { usedLevel s with script := rest }) :=
  step_of_hostMove hl hp hs

/-- Settles O34, by the input's level: asserted, the step is the reset; else it is the host's line `reset`. Either way
`applyReset` acts on a state that differs from `s` in the used level and the script line alone. -/
theorem resetInput : Obligations.ResetInput := by
  intro s h
  by_cases hl : s.resetLine.head? = some true
  · exact ⟨_, step_of_resetLine hl, rfl, rfl, rfl, rfl, rfl, rfl, rfl, rfl, rfl, rfl⟩
  · obtain ⟨hp, hs⟩ := h.resolve_left hl
    obtain ⟨rest, hs⟩ := List.head?_eq_some_iff.mp hs
    exact ⟨_, step_of_resetMove hl hp hs, rfl, rfl, rfl, rfl, rfl, rfl, rfl, rfl, rfl, rfl⟩

end Sys2Proof.Machine
end

section
namespace Sys2Proof.Machine

/-! The keystream (R100 to R103). The outer modulus `WRAP` is a multiple of 128, so it does not show. -/

/-- The index is the position modulo `TABLE_LEN` (R102). -/
theorem kidx_val (p : Nat) : (kidx p).val = p % 128 :=
  Nat.mod_mod_of_dvd p (by decide : 128 ∣ Config.wrap)

/-- Positions that agree modulo 128 read the same table byte (R103). -/
theorem maskBy_congr (table : Fin Config.tableLen → Byte) {p q : Nat} (h : p % 128 = q % 128) :
    maskBy table p = maskBy table q := by
  have hk : kidx p = kidx q := Fin.ext (by rw [kidx_val, kidx_val, h])
  rw [maskBy, maskBy, hk]

/-- Settles O1: `kidx_val` gives the index, and the bit fields are remainders modulo powers of two; position 32767 itself
shows that the outer modulus 32767 would not do. -/
theorem kidxIsLowSevenBits : Obligations.KidxIsLowSevenBits := by
  refine ⟨kidx_val, fun p => ?_, fun p => ?_, 32767, by decide⟩
  · rw [BitVec.extractLsb'_toNat]; rfl
  · rw [kidx_val, BitVec.extractLsb'_toNat]; rfl

/-- Settles O2: in each clause the two positions agree modulo 128, which divides `2^64`. -/
theorem keystreamPeriod : Obligations.KeystreamPeriod := by
  refine fun table => ⟨fun p => maskBy_congr table ?_, fun p => maskBy_congr table ?_, fun a b => maskBy_congr table ?_⟩
  · omega
  · rw [BitVec.toNat_add, BitVec.toNat_ofNat]; omega
  · omega

/-- Settles O3, by reading the three entries that `Config.keyTable` fixes. -/
theorem fixedTableBytes : Obligations.FixedTableBytes := by
  unfold Obligations.FixedTableBytes
  decide

/-! Masking of a byte and of a buffer, for every key table (R120 to R127). -/

theorem xorbBy_xorbBy (table : Fin Config.tableLen → Byte) (b : Byte) (p : Nat) :
    xorbBy table (xorbBy table b p) p = b := by
  rw [xorbBy, xorbBy, BitVec.xor_assoc, BitVec.xor_self, BitVec.xor_zero]

/-- Masking at positions that agree modulo 128 is the same (R121). -/
theorem xorbBy_congr (table : Fin Config.tableLen → Byte) (b : Byte) {p q : Nat} (h : p % 128 = q % 128) :
    xorbBy table b p = xorbBy table b q := by
  rw [xorbBy, xorbBy, maskBy_congr table h]

/-- Settles O4: `xorb` at a position is an involution, hence a bijection; its period is that of the keystream. -/
theorem xorbLaws : Obligations.XorbLaws := fun table =>
  ⟨xorbBy_xorbBy table, fun p => Function.Involutive.bijective fun b => xorbBy_xorbBy table b p,
    fun b p => xorbBy_congr table b (by omega), fun _ _ _ => BitVec.getLsbD_xor⟩

/-- Masking may be split anywhere, the second part standing at its own position (R127). -/
theorem maskbufBy_append (table : Fin Config.tableLen → Byte) (o : Position) (as bs : List Byte) :
    maskbufBy table o (as ++ bs) =
      maskbufBy table o as ++ maskbufBy table (o + BitVec.ofNat 64 as.length) bs := by
  have hpos (i : Nat) : o + BitVec.ofNat 64 (i + as.length) = o + BitVec.ofNat 64 as.length + BitVec.ofNat 64 i := by
    rw [Nat.add_comm, BitVec.ofNat_add, BitVec.add_assoc]
  simp only [maskbufBy, List.mapIdx_append, hpos]

theorem maskbufBy_maskbufBy (table : Fin Config.tableLen → Byte) (o : Position) (bs : List Byte) :
    maskbufBy table o (maskbufBy table o bs) = bs := by
  apply List.ext_getElem?
  intro i
  simp only [maskbufBy, List.getElem?_mapIdx, Option.map_map, Function.comp_def, xorbBy_xorbBy, Option.map_id']

/-- Settles O5: splitting by the position of the second part, the rest byte by byte from the laws of `xorb`. -/
theorem maskbufLaws : Obligations.MaskbufLaws := by
  refine fun table => ⟨maskbufBy_append table, maskbufBy_maskbufBy table, fun o bs => ?_, fun _ _ => List.length_mapIdx,
    fun _ _ _ => List.getElem?_mapIdx⟩
  have hpos (b : Byte) (i : Nat) : xorbBy table b (o + 128#64 + BitVec.ofNat 64 i).toNat =
      xorbBy table b (o + BitVec.ofNat 64 i).toNat :=
    xorbBy_congr table b (by simp only [BitVec.toNat_add, BitVec.toNat_ofNat]; omega)
  simp only [maskbufBy, hpos]

theorem maskbuf_append (o : Position) (as bs : List Byte) :
    maskbuf o (as ++ bs) = maskbuf o as ++ maskbuf (o + BitVec.ofNat 64 as.length) bs :=
  maskbufBy_append Config.keyTable o as bs

theorem maskbuf_maskbuf (o : Position) (bs : List Byte) : maskbuf o (maskbuf o bs) = bs :=
  maskbufBy_maskbufBy Config.keyTable o bs

theorem maskbuf_nil (o : Position) : maskbuf o [] = [] := rfl

end Sys2Proof.Machine
end

section
namespace Sys2Proof.Machine

/-! Decoding and encoding (R81, R82, R84, R92). -/

theorem phaseCode_phaseOfCode (c : BitVec 3) : phaseCode (phaseOfCode c) = c := by
  revert c; decide

/-- The encoding of a phase's row is the phase's code (R84). -/
theorem encode_phaseInstr (p : Phase) : encode (phaseInstr p) = .phase (phaseCode p) := by
  cases p <;> rfl

theorem decode_encode (i : Instr) : decode (encode i) = .command i := by
  cases i <;> rfl

/-- A command word that decodes to a command is that command's encoding (R82). -/
theorem encode_of_decodeCmd {v : Word} {i : Instr} (h : decodeCmd v = .command i) : encode i = .cmd v := by
  rw [commandDecoding v] at h
  split_ifs at h with hx hm
  · cases h; rw [hx]; rfl
  · cases h; rw [hm]; rfl

/-- Whatever decodes to an instruction is its encoding. -/
theorem encode_of_decode {c : Code} {i : Instr} (h : decode c = .command i) : c = encode i := by
  cases c with
  | cmd v => exact (encode_of_decodeCmd h).symm
  | phase c =>
    cases h
    rw [decodePhase, encode_phaseInstr, phaseCode_phaseOfCode]

theorem encode_wellFormed (i : Instr) : (encode i).wellFormed = true := by
  cases i <;> rfl

/-- A well-formed command word has a zero `ZERO` field and one of two values of `OPC` (R81). -/
theorem cmd_wellFormed_cases {v : Word} (h : (Code.cmd v).wellFormed = true) : v = 0x00000001#32 ∨ v = 0x00000002#32 := by
  simp only [Code.wellFormed, zeroFieldOk, opcodeOk, Bool.and_eq_true, decide_eq_true_eq] at h
  obtain ⟨hz, ho⟩ := h
  rw [Nat.mod_eq_of_lt hz] at ho
  exact ho.imp BitVec.eq_of_toNat_eq BitVec.eq_of_toNat_eq

/-- What is well formed decodes to an instruction. -/
theorem decode_of_wellFormed {c : Code} (h : c.wellFormed = true) : ∃ i, decode c = .command i := by
  cases c with
  | cmd v =>
    obtain rfl | rfl := cmd_wellFormed_cases h
    · exact ⟨.xform, rfl⟩
    · exact ⟨.maskq, rfl⟩
  | phase c => exact ⟨decodePhase c, rfl⟩

/-- Settles O7: `decode_encode` one way, `encode_of_decode` the other; what decodes is well formed because encodings
are. -/
theorem decodeEncodeAgree : Obligations.DecodeEncodeAgree := by
  refine ⟨fun i => ⟨by cases i <;> rfl, decode_encode i⟩, fun _ _ => encode_of_decode,
    fun c => ⟨decode_of_wellFormed, ?_⟩⟩
  rintro ⟨i, h⟩
  rw [encode_of_decode h]
  exact encode_wellFormed i

/-- Settles O8: each of the ten words is a small closed computation of the decoder. -/
theorem tableWordsDecode : Obligations.TableWordsDecode := by
  unfold Obligations.TableWordsDecode
  decide

/-- A table word that decodes to an instruction stands for a code that does. -/
theorem decodeTableWord_eq_some {nbits w : Nat} {i : Instr} (h : decodeTableWord nbits w = some i) :
    ∃ c, tableCode nbits w = some c ∧ decode c = .command i := by
  unfold decodeTableWord at h
  cases hc : tableCode nbits w with
  | none => rw [hc] at h; cases h
  | some c =>
    cases hd : decode c with
    | command j => simp only [hc, hd] at h; cases h; exact ⟨c, rfl, hd⟩
    | reserved v => simp only [hc, hd] at h; cases h

end Sys2Proof.Machine
end

section
namespace Sys2Proof.Machine

/-! The inversion of a step, by who acts at the boundary. Every invariant and every frame below is a case analysis over these
two relations; `step_next_cases` and `step_iff_microStep` tie them to `step`. -/

/-- What a step of the sequencer in a running phase can do (R142, R143, R122, R145, R146), with the port's answer that it
acts on. -/
inductive MicroStep (s : State) : State → Prop
  | initConfig (hp : s.phase = .init) (hc : s.chunk = 0#32) :
      MicroStep s (release (raise .config { s with offset := 0#64, len := 0#32 }))
  | initStart (hp : s.phase = .init) (hc : s.chunk ≠ 0#32) :
      MicroStep s { s with offset := 0#64, len := 0#32, phase := .read }
  | readWait (hp : s.phase = .read) (hr : srcReply s.chunk s = .waiting) : MicroStep s (afterSrcRead s.chunk s)
  | readEnd (hp : s.phase = .read) (hr : srcReply s.chunk s = .ok []) :
      MicroStep s (release { afterSrcRead s.chunk s with len := 0#32, phase := .done })
  | readChunk (b : Byte) (bs : List Byte) (hp : s.phase = .read) (hr : srcReply s.chunk s = .ok (b :: bs)) :
      MicroStep s { afterSrcRead s.chunk s with
        buf := (b :: bs) ++ s.buf.drop (b :: bs).length
        len := BitVec.ofNat 32 (b :: bs).length
        phase := .mask }
  | readFail (code : Word) (hp : s.phase = .read) (hr : srcReply s.chunk s = .failed code) :
      MicroStep s (release (raise (.readFailed code)
        { afterSrcRead s.chunk s with
          len := Config.freeLen (s.draws + 1), buf := [], bufGen := s.draws + 1, draws := s.draws + 1 + 1 }))
  | maskChunk (hp : s.phase = .mask) :
      MicroStep s { s with
        buf := maskbuf s.offset (bufChunk s) ++ s.buf.drop s.len.toNat
        phase := .write }
  | writeWait (hp : s.phase = .write) (hr : snkReply s = .waiting) : MicroStep s (afterSinkWrite (bufChunk s) s)
  | writeOk (hp : s.phase = .write) (hr : snkReply s = .ok) :
      MicroStep s { afterSinkWrite (bufChunk s) s with phase := .adv }
  | writeFail (code : Word) (hp : s.phase = .write) (hr : snkReply s = .failed code) :
      MicroStep s (release (raise (.writeFailed code) (afterSinkWrite (bufChunk s) s)))
  | advance (hp : s.phase = .adv) : MicroStep s { s with offset := s.offset + zext64 s.len, phase := .read }

/-- What a move of the host in a resting phase can do (R89, R216, R218): a command, a reserved word, an access to a register
other than `CMD`, a bind, a reset. -/
inductive HostStep (s : State) : HostMove → State → Prop
  | xform (hb : s.binding = .bound) :
      HostStep s (.write 0x00#32 32 0x00000001#32) { clearErrors s with phase := .init }
  | maskq : HostStep s (.write 0x00#32 32 0x00000002#32) { s with maskval := mask s.pos.toNat }
  | reserved (v : Word) (h2 : v ≠ 0x00000002#32) : HostStep s (.write 0x00#32 32 v) (raise .badCommand s)
  | store (off v : Word) (width : Nat) (r : Reg) (hr : regAt off width = some r) (hc : r ≠ .cmd) :
      HostStep s (.write off width v) (csrStore r v s)
  | load (off : Word) (width : Nat) (r : Reg) :
      HostStep s (.read off width) { s with reads := s.reads ++ [csrValue r s] }
  | bind (src snk : List Byte) : HostStep s (.bind src snk) (connect .bound false src snk s)
  | bindEndless (front snk : List Byte) : HostStep s (.bindEndless front snk) (connect .bound true front snk s)
  | bindAliased (stream : List Byte) : HostStep s (.bindAliased stream) (connect .aliased false stream stream s)
  | reset : HostStep s .reset (applyReset s)

/-- The sequencer steps in the running phases only (R80). -/
theorem MicroStep.running {s t : State} (h : MicroStep s t) : s.phase.resting = false := by
  cases h <;> simp only [‹s.phase = _›, Phase.resting]

theorem submit_hostStep {v : Word} {s t : State} (h : submit v s = .next t) : HostStep s (.write 0x00#32 32 v) t := by
  by_cases hx : v = 0x00000001#32
  · subst hx
    obtain ⟨-, hb, rfl⟩ := execXform_cases h
    exact .xform hb
  · by_cases hm : v = 0x00000002#32
    · subst hm
      obtain ⟨-, rfl⟩ := execMaskq_cases h
      exact .maskq
    · rw [submit_of_reserved hx hm] at h
      cases h
      exact .reserved v hm

theorem hostMove_hostStep {m : HostMove} {s t : State} (h : hostMove m s = .next t) : HostStep s m t := by
  obtain ⟨v, rfl, h⟩ | ⟨off, width, v, r, rfl, hr, hc, rfl⟩ | ⟨off, width, r, rfl, -, rfl⟩ |
    ⟨src, snk, rfl, rfl⟩ | ⟨front, snk, rfl, rfl⟩ | ⟨stream, rfl, rfl⟩ | ⟨rfl, rfl⟩ := hostMove_cases h
  · exact submit_hostStep h
  · exact .store off v width r hr hc
  · exact .load off width r
  · exact .bind src snk
  · exact .bindEndless front snk
  · exact .bindAliased stream
  · exact .reset

/-- In a running phase the sequencer does one of its steps, and nothing else. -/
theorem microStep_of_exec {s t : State} (hp : s.phase.resting = false) (h : exec (phaseInstr s.phase) s = .next t) :
    MicroStep s t := by
  cases hq : s.phase with rw [hq] at h hp
  | idle | done | fail => cases hp
  | init =>
    obtain ⟨hc, rfl⟩ | ⟨hc, rfl⟩ := execInit_cases h
    · exact .initConfig hq hc
    · exact .initStart hq hc
  | read =>
    obtain ⟨hr, rfl⟩ | ⟨hr, rfl⟩ | ⟨b, bs, hr, rfl⟩ | ⟨code, hr, rfl⟩ := execRead_cases h
    · exact .readWait hq hr
    · exact .readEnd hq hr
    · exact .readChunk b bs hq hr
    · exact .readFail code hq hr
  | mask => cases h; exact .maskChunk hq
  | write =>
    obtain ⟨hr, rfl⟩ | ⟨hr, rfl⟩ | ⟨code, hr, rfl⟩ := execWrite_cases h
    · exact .writeWait hq hr
    · exact .writeOk hq hr
    · exact .writeFail code hq hr
  | adv => cases h; exact .advance hq

theorem exec_of_microStep {s t : State} (h : MicroStep s t) : exec (phaseInstr s.phase) s = .next t := by
  cases h with
  | initConfig hp hc => rw [hp]; exact execInit_of_zero_chunk hc
  | initStart hp hc => rw [hp]; exact execInit_of_chunk hc
  | readWait hp hr | readEnd hp hr | readChunk _ _ hp hr | readFail _ hp hr => rw [hp]; exact exec_read_of_reply hr
  | writeWait hp hr | writeOk hp hr | writeFail _ hp hr => rw [hp]; exact exec_write_of_reply hr
  | maskChunk hp | advance hp => rw [hp]; rfl

/-- Without reset the step of a running phase is the sequencer's (R217). -/
theorem step_of_running {s : State} (hl : s.resetLine.head? ≠ some true) (hp : s.phase.resting = false) :
    step s = exec (phaseInstr s.phase) (usedLevel s) := by
  have hr : ¬ (usedLevel s).phase.resting = true := by rw [usedLevel_phase, hp]; decide
  rw [step, stepBoundary, if_neg hl, advance, if_neg hr, sequence, decodePhase_phaseCode, usedLevel_phase]

theorem step_iff_microStep {s t : State} (hl : s.resetLine.head? ≠ some true) (hp : s.phase.resting = false) :
    step s = .next t ↔ MicroStep (usedLevel s) t := by
  rw [step_of_running hl hp]
  exact ⟨microStep_of_exec (s := usedLevel s) hp, exec_of_microStep (s := usedLevel s)⟩

/-- In a running phase the sequencer's step is never refused. -/
theorem exec_running_next {s : State} (hp : s.phase.resting = false) : ∃ t, exec (phaseInstr s.phase) s = .next t := by
  cases hq : s.phase with
  | idle | done | fail => rw [hq] at hp; cases hp
  | init | read | mask | write | adv => exact ⟨_, rfl⟩

/-- What a step can do: a reset, a move of the host, nothing in a resting phase, or a step of the sequencer. -/
theorem step_next_cases {s t : State} (h : step s = .next t) :
    (s.resetLine.head? = some true ∧ t = applyReset (usedLevel s)) ∨
    (s.phase.resting = true ∧ ∃ m rest, s.script = m :: rest ∧ HostStep { usedLevel s with script := rest } m t) ∨
    (s.phase.resting = true ∧ s.script = [] ∧ t = usedLevel s) ∨
    (s.phase.resting = false ∧ MicroStep (usedLevel s) t) := by
  obtain ⟨hl, rfl⟩ | ⟨-, hp, m, rest, hs, hm⟩ | ⟨hl, hs, he⟩ := step_cases h
  · exact .inl ⟨hl, rfl⟩
  · exact .inr (.inl ⟨hp, m, rest, hs, hostMove_hostStep hm⟩)
  · cases hp : s.phase.resting with
    | false => exact .inr (.inr (.inr ⟨rfl, microStep_of_exec (s := usedLevel s) hp he⟩))
    | true =>
      refine .inr (.inr (.inl ⟨rfl, hs hp, ?_⟩))
      cases hq : s.phase with rw [hq] at he hp
      | idle | done | fail => cases he; rfl
      | init | read | mask | write | adv => cases hp

end Sys2Proof.Machine
end

section
namespace Sys2Proof.Machine

/-! What an answer that is no failure carries (R53). -/

/-- An answer with bytes is a front part of what the source holds, it is logged as such, and the rest stays. -/
theorem srcReply_ok {n : Word} {s : State} {bs : List Byte} (h : srcReply n s = .ok bs) :
    bs ++ srcLeft n s = srcHeld n s ∧ bs.length ≤ n.toNat ∧ srcCall n s = [.srcRead n bs] ∧
      (n ≠ 0#32 → (bs = [] ↔ srcHeld n s = [])) := by
  obtain ⟨-, hr, -, -⟩ | ⟨k, -, hr, hl, hc⟩ | ⟨code, -, hr, -, -⟩ := srcReply_cases n s
  · rw [hr] at h; cases h
  · rw [hr] at h
    cases h
    have hlen := List.length_take_of_le (readCount_le_held k n (srcHeld n s).length)
    refine ⟨by rw [hl, List.take_append_drop], hlen.trans_le (readCount_le_asked k n _), hc,
      fun hn => ⟨fun he => ?_, fun hh => ?_⟩⟩
    · by_contra hh
      have hpos := readCount_pos k hn (mt List.length_eq_zero_iff.mp hh)
      rw [he] at hlen
      exact absurd hlen.symm (Nat.ne_of_gt hpos)
    · rw [hh, List.take_nil]
  · rw [hr] at h; cases h

/-- What an endless source holds begins with what it lists (R195). -/
theorem srcHeld_front {n : Word} {s : State} (h : s.endless = true) : ∃ more, srcHeld n s = s.src ++ more :=
  ⟨_, if_pos h⟩

/-- Settles O17: an answer with bytes is described by `srcReply_ok`; for the admissible lengths and the failures the list of
answers is the one that says so. -/
theorem sourcePortContract : Obligations.SourcePortContract := by
  refine ⟨fun s n bs hn h => ?_, fun s n k h1 hk hh => ?_, fun s n => srcHeld_of_finite n,
    fun s n h => ⟨srcHeld_of_endless n h, srcHeld_front h⟩, fun s n code => srcReply_of_fail n rfl⟩
  · obtain ⟨hsplit, hlen, -, hnil⟩ := srcReply_ok h
    exact ⟨hsplit, hlen, hnil hn⟩
  · rw [srcReply_of_deliver n (k := k) rfl]
    exact congrArg (fun j => SrcReply.ok ((srcHeld n s).take j)) (readCount_of_admissible h1 hk hh)

/-- The length of a chunk that fits in `CHUNK` fits in `LEN`. -/
theorem toNat_ofNat_length {bs : List Byte} {n : Word} (h : bs.length ≤ n.toNat) :
    (BitVec.ofNat 32 bs.length).toNat = bs.length := by
  rw [BitVec.toNat_ofNat, Nat.mod_eq_of_lt (h.trans_lt n.isLt)]

end Sys2Proof.Machine
end

section
namespace Sys2Proof.Machine

/-! The invariant of the registers (R22, R23, R26 to R28, R144, R186). Of a running phase and of a resting phase it says
different things: one introduction rule for each. -/

theorem inv_of_running {s : State} (hp : s.phase.resting = false) (hb : s.binding = .bound) (hk : s.errkind = .none)
    (hs : s.errsite = 0#1 ∧ s.iocode = 0#32) (hc : s.phase ≠ .init → s.chunk ≠ 0#32)
    (hh : s.phase.holdsChunk = true → 1 ≤ s.len.toNat ∧ s.len.toNat ≤ s.chunk.toNat ∧ s.len.toNat ≤ s.buf.length) :
    s.Inv where
  quietUnlessIo _ := hs
  failIffKind := ⟨fun hf => (by rw [hf] at hp; cases hp), fun hn => absurd hk hn⟩
  chunkInRun _ := hc
  chunkHeld := hh
  boundInRun _ := hb
  doneLen hd := by rw [hd] at hp; cases hp
  idleOffset hi := by rw [hi] at hp; cases hp
  configOffset he := by rw [hk] at he; cases he

theorem holdsChunk_of_resting {p : Phase} (h : p.resting = true) : p.holdsChunk = false := by
  cases p <;> first | rfl | cases h

theorem inv_of_resting {s : State} (hp : s.phase.resting = true)
    (hq : s.errkind ≠ .ioFailure → s.errsite = 0#1 ∧ s.iocode = 0#32) (hf : s.phase = .fail ↔ s.errkind ≠ .none)
    (hd : s.phase = .done → s.len = 0#32) (hi : s.phase = .idle → s.offset = 0#64)
    (hc : s.errkind = .configError → s.offset = 0#64 ∧ s.len = 0#32) : s.Inv where
  quietUnlessIo := hq
  failIffKind := hf
  chunkInRun hr := by rw [hp] at hr; cases hr
  chunkHeld hh := by rw [holdsChunk_of_resting hp] at hh; cases hh
  boundInRun hr := by rw [hp] at hr; cases hr
  doneLen := hd
  idleOffset := hi
  configOffset := hc

/-- In a running phase the error fields are clear (R26, R141). -/
theorem State.Inv.quiet {s : State} (h : s.Inv) (hp : s.phase.resting = false) :
    s.errkind = .none ∧ s.errsite = 0#1 ∧ s.iocode = 0#32 := by
  have hk : s.errkind = .none := by
    by_contra hn
    rw [h.failIffKind.mpr hn] at hp
    cases hp
  exact ⟨hk, h.quietUnlessIo (by rw [hk]; decide)⟩

/-- In a resting phase only PHASE, the error fields, OFFSET and LEN matter. -/
theorem State.Inv.of_resting_eq {s t : State} (h : s.Inv) (hp : s.phase.resting = true) (hpt : t.phase = s.phase)
    (hk : t.errkind = s.errkind) (hs : t.errsite = s.errsite) (hi : t.iocode = s.iocode) (ho : t.offset = s.offset)
    (hl : t.len = s.len) : t.Inv := by
  apply inv_of_resting <;> simp only [hpt, hk, hs, hi, ho, hl]
  · exact hp
  · exact h.quietUnlessIo
  · exact h.failIffKind
  · exact h.doneLen
  · exact h.idleOffset
  · exact h.configOffset

theorem State.Inv.usedLevel {s : State} (h : s.Inv) : (usedLevel s).Inv :=
  ⟨h.quietUnlessIo, h.failIffKind, h.chunkInRun, h.chunkHeld, h.boundInRun, h.doneLen, h.idleOffset, h.configOffset⟩

theorem State.Inv.release {s : State} (h : s.Inv) (hp : s.phase.resting = true) : (release s).Inv :=
  h.of_resting_eq hp rfl rfl rfl rfl rfl rfl

theorem failureKind_ne_none (f : Failure) : failureKind f ≠ .none := by
  cases f <;> nofun

/-- A failure leaves the invariant whatever stood before, a ConfigError if the counters are 0 (R185, R186). -/
theorem inv_raise (f : Failure) (s : State) (hc : f = .config → s.offset = 0#64 ∧ s.len = 0#32) : (raise f s).Inv := by
  refine inv_of_resting rfl (fun hq => ?_) ⟨fun _ => failureKind_ne_none f, fun _ => rfl⟩ nofun nofun fun hk => ?_
  · cases f with
    | config | badCommand => exact ⟨rfl, rfl⟩
    | readFailed code | writeFailed code => exact absurd rfl hq
  · cases f with
    | config => exact hc rfl
    | readFailed code | writeFailed code | badCommand => cases hk

theorem inv_applyReset (s : State) : (applyReset s).Inv := by
  apply inv_of_resting <;> simp [Phase.resting]

/-- Settles O40: every clause at the values `State.reset` writes out. -/
theorem invAtReset : Obligations.InvAtReset := by
  apply inv_of_resting <;> simp [State.reset, Phase.resting]

/-- A move of the host keeps the invariant: XFORM enters a clean run, a reserved word a clean failure, the rest leaves what
the invariant speaks of. -/
theorem HostStep.inv {s t : State} {m : HostMove} (h : HostStep s m t) (hp : s.phase.resting = true) (hs : s.Inv) :
    t.Inv := by
  cases h with
  | xform hb => exact inv_of_running rfl hb rfl ⟨rfl, rfl⟩ (absurd rfl) nofun
  | reserved v _ => exact inv_raise _ _ nofun
  | store off v width r =>
    rw [csrStore_frame]
    exact hs.of_resting_eq hp rfl rfl rfl rfl rfl rfl
  | maskq | load | bind | bindEndless | bindAliased => exact hs.of_resting_eq hp rfl rfl rfl rfl rfl rfl
  | reset => exact inv_applyReset s

/-- A running step that only uses up answers of the ports keeps the invariant. -/
theorem State.Inv.of_running_eq {s t : State} (h : s.Inv) (hp : s.phase.resting = false) (hpt : t.phase = s.phase)
    (hb : t.binding = s.binding) (hk : t.errkind = s.errkind) (hs : t.errsite = s.errsite) (hi : t.iocode = s.iocode)
    (hc : t.chunk = s.chunk) (hl : t.len = s.len) (hbuf : t.buf = s.buf) : t.Inv := by
  obtain ⟨hk', hq⟩ := h.quiet hp
  apply inv_of_running <;> simp only [hpt, hb, hk, hs, hi, hc, hl, hbuf]
  · exact hp
  · exact h.boundInRun hp
  · exact hk'
  · exact hq
  · exact h.chunkInRun hp
  · exact h.chunkHeld

/-- A step of the sequencer keeps the invariant; `LEN` gets its bounds from the port's contract. -/
theorem MicroStep.inv {s t : State} (h : MicroStep s t) (hs : s.Inv) : t.Inv := by
  have hrun := h.running
  obtain ⟨hk, hq⟩ := hs.quiet hrun
  have hb := hs.boundInRun hrun
  have hc := hs.chunkInRun hrun
  have hheld := hs.chunkHeld
  cases h with
  | initConfig => exact (inv_raise _ _ fun _ => ⟨rfl, rfl⟩).release rfl
  | initStart _ hc => exact inv_of_running rfl hb hk hq (fun _ => hc) nofun
  | readWait | writeWait => exact hs.of_running_eq hrun rfl rfl rfl rfl rfl rfl rfl rfl
  | readEnd => apply inv_of_resting <;> simp [Phase.resting, hk, hq]
  | readChunk b bs hp hr =>
    obtain ⟨-, hlen, -⟩ := srcReply_ok hr
    refine inv_of_running rfl hb hk hq (fun _ => hc (by simp [hp])) fun _ => ?_
    show 1 ≤ (BitVec.ofNat 32 (b :: bs).length).toNat ∧ (BitVec.ofNat 32 (b :: bs).length).toNat ≤ s.chunk.toNat ∧
      (BitVec.ofNat 32 (b :: bs).length).toNat ≤ ((b :: bs) ++ s.buf.drop (b :: bs).length).length
    rw [toNat_ofNat_length hlen, List.length_append]
    exact ⟨Nat.succ_pos _, hlen, Nat.le_add_right _ _⟩
  | maskChunk hp =>
    obtain ⟨h1, h2, -⟩ := hheld (by rw [hp]; rfl)
    refine inv_of_running rfl hb hk hq (fun _ => hc (by simp [hp])) fun _ => ⟨h1, h2, ?_⟩
    rw [List.length_append, maskbuf_bufChunk_length]
    exact Nat.le_add_right _ _
  | writeOk hp => exact inv_of_running rfl hb hk hq (fun _ => hc (by simp [hp])) fun _ => hheld (by rw [hp]; rfl)
  | readFail code => exact (inv_raise (.readFailed code) _ nofun).release rfl
  | writeFail code => exact (inv_raise (.writeFailed code) _ nofun).release rfl
  | advance hp => exact inv_of_running rfl hb hk hq (fun _ => hc (by simp [hp])) nofun

/-- Settles O41, by what a step can do. -/
theorem invKept : Obligations.InvKept := by
  intro s t hs h
  obtain ⟨-, rfl⟩ | ⟨hp, m, rest, -, hm⟩ | ⟨-, -, rfl⟩ | ⟨-, hm⟩ := step_next_cases h
  · exact inv_applyReset _
  · exact hm.inv hp (hs.of_resting_eq hp rfl rfl rfl rfl rfl rfl)
  · exact hs.usedLevel
  · exact hm.inv hs.usedLevel

end Sys2Proof.Machine
end

section
namespace Sys2Proof.Machine

/-! The record of port calls (R60; log 18): what one more call does to it. -/

theorem callsAlternate_append (b : Bool) (l l' : List PortCall) :
    callsAlternate b (l ++ l') = (callsAlternate b l && callsAlternate (b ^^ decide (l.length % 2 = 1)) l') := by
  induction l generalizing b with
  | nil => simp [callsAlternate]
  | cons c l ih =>
    have hodd : decide ((l.length + 1) % 2 = 1) = !decide (l.length % 2 = 1) := by
      rw [← decide_not]
      exact decide_eq_decide.mpr (by omega)
    cases c <;> cases b <;> simp [callsAlternate, ih, hodd]

/-- After an even number of calls it is a read's turn (R60). -/
theorem callsAlternate_srcRead {l : List PortCall} (h : callsAlternate true l = true) (he : l.length % 2 = 0)
    (n : Word) (bs : List Byte) : callsAlternate true (l ++ [.srcRead n bs]) = true := by
  simp [callsAlternate_append, h, he, callsAlternate]

/-- After an odd number of calls it is a write's turn (R60). -/
theorem callsAlternate_sinkWrite {l : List PortCall} (h : callsAlternate true l = true) (ho : l.length % 2 = 1)
    (bs : List Byte) : callsAlternate true (l ++ [.sinkWrite bs]) = true := by
  simp [callsAlternate_append, h, ho, callsAlternate]

theorem srcCall_of_waiting {n : Word} {s : State} (h : srcReply n s = .waiting) : srcCall n s = [] := by
  simp only [srcCall, h]

theorem srcCall_of_failed {n : Word} {s : State} {code : Word} (h : srcReply n s = .failed code) :
    srcCall n s = [.srcRead n []] := by
  simp only [srcCall, h]

theorem srcCall_of_ok {n : Word} {s : State} {bs : List Byte} (h : srcReply n s = .ok bs) :
    srcCall n s = [.srcRead n bs] := by
  simp only [srcCall, h]

theorem snkCall_of_waiting {bs : List Byte} {s : State} (h : snkReply s = .waiting) : snkCall bs s = [] := by
  simp only [snkCall, h]

theorem snkCall_of_failed {bs : List Byte} {s : State} {code : Word} (h : snkReply s = .failed code) :
    snkCall bs s = [.sinkWrite bs] := by
  simp only [snkCall, h]

theorem snkCall_of_ok {bs : List Byte} {s : State} (h : snkReply s = .ok) : snkCall bs s = [.sinkWrite bs] := by
  simp only [snkCall, h]

theorem srcLeft_of_waiting {n : Word} {s : State} (h : srcReply n s = .waiting) : srcLeft n s = s.src := by
  obtain ⟨-, -, hl, -⟩ | ⟨k, -, hk, -⟩ | ⟨code, -, hk, -⟩ := srcReply_cases n s
  · exact hl
  · cases h.symm.trans hk
  · cases h.symm.trans hk

theorem snkTakes_of_waiting {s : State} (bs : List Byte) (h : snkReply s = .waiting) : snkTakes bs s = [] := by
  obtain ⟨-, -, ht, -⟩ | ⟨-, hk, -⟩ | ⟨code, j, -, hk, -⟩ := snkReply_cases bs s
  · exact ht
  · cases h.symm.trans hk
  · cases h.symm.trans hk

theorem snkTakes_of_ok {s : State} (bs : List Byte) (h : snkReply s = .ok) : snkTakes bs s = bs := by
  obtain ⟨-, hk, -⟩ | ⟨-, -, ht, -⟩ | ⟨code, j, -, hk, -⟩ := snkReply_cases bs s
  · cases h.symm.trans hk
  · exact ht
  · cases h.symm.trans hk

/-- A failing sink has taken a part from the front (R54). -/
theorem snkTakes_of_failed {s : State} {code : Word} (bs : List Byte) (h : snkReply s = .failed code) :
    ∃ j, j ≤ bs.length ∧ snkTakes bs s = bs.take j := by
  obtain ⟨-, hk, -⟩ | ⟨-, hk, -⟩ | ⟨code', j, -, -, ht, -⟩ := snkReply_cases bs s
  · cases h.symm.trans hk
  · cases h.symm.trans hk
  · refine ⟨min j bs.length, Nat.min_le_right _ _, ?_⟩
    rw [ht, ← List.take_take, List.take_length]

/-! The order of port calls (R60, R61): one introduction rule for each place of the sequencer. -/

theorem portOrder_of_unbound {s : State} (ha : callsAlternate true s.portLog = true) (hp : s.phase.resting = true)
    (hb : s.binding ≠ .bound) : s.PortOrder where
  alternate := ha
  initFresh hi := by simp [hi, Phase.resting] at hp
  boundFresh _ hb' := absurd hb' hb
  readTurn hr := by obtain hr | hr := hr <;> simp [hr, Phase.resting] at hp
  writeTurn hw := by obtain hw | hw := hw <;> simp [hw, Phase.resting] at hp

theorem portOrder_of_fresh {s : State} (hl : s.portLog = []) (hp : s.phase = .init ∨ s.phase.resting = true) :
    s.PortOrder where
  alternate := by rw [hl]; rfl
  initFresh _ := hl
  boundFresh _ _ := hl
  readTurn _ := by rw [hl]; rfl
  writeTurn hw := by obtain hw | hw := hw <;> simp [hw, Phase.resting] at hp

theorem portOrder_of_readTurn {s : State} (hp : s.phase = .read ∨ s.phase = .adv)
    (ha : callsAlternate true s.portLog = true) (he : s.portLog.length % 2 = 0) : s.PortOrder where
  alternate := ha
  initFresh hi := by simp [hi] at hp
  boundFresh hr := by obtain hp | hp := hp <;> simp [hp, Phase.resting] at hr
  readTurn _ := he
  writeTurn hw := by obtain hw | hw := hw <;> simp [hw] at hp

theorem portOrder_of_writeTurn {s : State} (hp : s.phase = .mask ∨ s.phase = .write)
    (ha : callsAlternate true s.portLog = true) (ho : s.portLog.length % 2 = 1) : s.PortOrder where
  alternate := ha
  initFresh hi := by simp [hi] at hp
  boundFresh hr := by obtain hp | hp := hp <;> simp [hp, Phase.resting] at hr
  readTurn hr := by obtain hr | hr := hr <;> simp [hr] at hp
  writeTurn _ := ho

/-- The order speaks of PHASE, the record and the binding only. -/
theorem State.PortOrder.of_eq {s t : State} (h : s.PortOrder) (hp : t.phase = s.phase) (hl : t.portLog = s.portLog)
    (hb : t.binding = s.binding) : t.PortOrder := by
  obtain ⟨ha, hi, hf, hr, hw⟩ := h
  constructor <;> simpa only [hp, hl, hb]

/-- Settles O42: nothing is recorded at reset. -/
theorem portOrderAtReset : Obligations.PortOrderAtReset :=
  portOrder_of_fresh rfl (.inr rfl)

/-- A reset leaves the record as it is and nothing bound. -/
theorem State.PortOrder.applyReset {s : State} (h : s.PortOrder) : (applyReset s).PortOrder :=
  portOrder_of_unbound h.alternate rfl nofun

/-- XFORM starts a run on the fresh record of its bind; a bind starts a fresh record; no other move of the host touches
it. -/
theorem HostStep.portOrder {s t : State} {m : HostMove} (h : HostStep s m t) (hp : s.phase.resting = true)
    (hs : s.PortOrder) : t.PortOrder := by
  cases h with
  | xform hb => exact portOrder_of_fresh (hs.boundFresh hp hb) (.inl rfl)
  | reserved =>
    by_cases hb : s.binding = .bound
    · exact portOrder_of_fresh (hs.boundFresh hp hb) (.inr rfl)
    · exact portOrder_of_unbound hs.alternate rfl hb
  | store off v width r =>
    rw [csrStore_frame]
    exact hs.of_eq rfl rfl rfl
  | maskq | load => exact hs.of_eq rfl rfl rfl
  | bind | bindEndless | bindAliased => exact portOrder_of_fresh rfl (.inr hp)
  | reset => exact hs.applyReset

/-- READ calls the source after an even number of calls, WRITE the sink after an odd one; the end of a run unbinds the
pair. -/
theorem MicroStep.portOrder {s t : State} (h : MicroStep s t) (hs : s.PortOrder) : t.PortOrder := by
  have ha := hs.alternate
  cases h with
  | initConfig => exact portOrder_of_unbound ha rfl nofun
  | initStart hp => exact portOrder_of_readTurn (.inl rfl) ha (congrArg (List.length · % 2) (hs.initFresh hp))
  | readWait _ hr => exact hs.of_eq rfl (by simp [srcCall_of_waiting hr]) rfl
  | readEnd hp hr =>
    refine portOrder_of_unbound ?_ rfl nofun
    simp only [release_portLog, afterSrcRead_portLog, srcCall_of_ok hr]
    exact callsAlternate_srcRead ha (hs.readTurn (.inl hp)) _ _
  | readChunk b bs hp hr =>
    have he := hs.readTurn (.inl hp)
    refine portOrder_of_writeTurn (.inl rfl) ?_ ?_ <;> simp only [afterSrcRead_portLog, srcCall_of_ok hr]
    · exact callsAlternate_srcRead ha he _ _
    · rw [List.length_append, List.length_singleton]; omega
  | readFail code hp hr =>
    refine portOrder_of_unbound ?_ rfl nofun
    simp only [release_portLog, raise_portLog, afterSrcRead_portLog, srcCall_of_failed hr]
    exact callsAlternate_srcRead ha (hs.readTurn (.inl hp)) _ _
  | maskChunk hp => exact portOrder_of_writeTurn (.inr rfl) ha (hs.writeTurn (.inl hp))
  | writeWait _ hr => exact hs.of_eq rfl (by simp [snkCall_of_waiting hr]) rfl
  | writeOk hp hr =>
    have ho := hs.writeTurn (.inr hp)
    refine portOrder_of_readTurn (.inr rfl) ?_ ?_ <;> simp only [afterSinkWrite_portLog, snkCall_of_ok hr]
    · exact callsAlternate_sinkWrite ha ho _
    · rw [List.length_append, List.length_singleton]; omega
  | writeFail code hp hr =>
    refine portOrder_of_unbound ?_ rfl nofun
    simp only [release_portLog, raise_portLog, afterSinkWrite_portLog, snkCall_of_failed hr]
    exact callsAlternate_sinkWrite ha (hs.writeTurn (.inr hp)) _
  | advance hp => exact portOrder_of_readTurn (.inl rfl) ha (hs.readTurn (.inr hp))

theorem State.PortOrder.usedLevel {s : State} (h : s.PortOrder) : (usedLevel s).PortOrder :=
  h.of_eq rfl rfl rfl

/-- Settles O43, by what a step can do. -/
theorem portOrderKept : Obligations.PortOrderKept := by
  intro s t hs h
  obtain ⟨-, rfl⟩ | ⟨hp, m, rest, -, hm⟩ | ⟨-, -, rfl⟩ | ⟨-, hm⟩ := step_next_cases h
  · exact hs.usedLevel.applyReset
  · exact hm.portOrder hp (hs.of_eq rfl rfl rfl)
  · exact hs.usedLevel
  · exact hm.portOrder hs.usedLevel

end Sys2Proof.Machine
end

section
namespace Sys2Proof.Machine

/-! The bytes of a record of calls. -/

@[simp] theorem readBytes_nil : readBytes [] = [] := rfl
@[simp] theorem writtenBytes_nil : writtenBytes [] = [] := rfl

@[simp] theorem readBytes_append (l l' : List PortCall) : readBytes (l ++ l') = readBytes l ++ readBytes l' :=
  List.flatMap_append

@[simp] theorem writtenBytes_append (l l' : List PortCall) :
    writtenBytes (l ++ l') = writtenBytes l ++ writtenBytes l' :=
  List.flatMap_append

@[simp] theorem readBytes_srcRead (n : Word) (bs : List Byte) (l : List PortCall) :
    readBytes (.srcRead n bs :: l) = bs ++ readBytes l := rfl

@[simp] theorem writtenBytes_srcRead (n : Word) (bs : List Byte) (l : List PortCall) :
    writtenBytes (.srcRead n bs :: l) = writtenBytes l := rfl

@[simp] theorem readBytes_sinkWrite (bs : List Byte) (l : List PortCall) :
    readBytes (.sinkWrite bs :: l) = readBytes l := rfl

@[simp] theorem writtenBytes_sinkWrite (bs : List Byte) (l : List PortCall) :
    writtenBytes (.sinkWrite bs :: l) = bs ++ writtenBytes l := rfl

/-- A chunk in `BUF` from index 0, with its length in `LEN`, is the chunk the next rules see (R143, R145). -/
theorem bufChunk_readChunk {s : State} {b : Byte} {bs : List Byte} (hr : srcReply s.chunk s = .ok (b :: bs)) :
    bufChunk { afterSrcRead s.chunk s with
      buf := (b :: bs) ++ s.buf.drop (b :: bs).length
      len := BitVec.ofNat 32 (b :: bs).length
      phase := .mask } = b :: bs := by
  obtain ⟨-, hlen, -⟩ := srcReply_ok hr
  exact bufChunk_eq_of_buf rfl (toNat_ofNat_length hlen)

/-- Masking replaces the chunk by the masked one (R122). -/
theorem bufChunk_maskChunk (s : State) :
    bufChunk { s with buf := maskbuf s.offset (bufChunk s) ++ s.buf.drop s.len.toNat, phase := .write } =
      maskbuf s.offset (bufChunk s) :=
  bufChunk_eq_of_buf rfl (maskbuf_bufChunk_length s.offset s).symm

/-! The masked stream (R2, R21, R126, R127): an introduction rule for each phase that it speaks of. -/

theorem maskedStream_of_none {s : State} (hp : s.phase = .init ∨ s.phase.resting = true) : s.MaskedStream := by
  constructor <;> intro hq <;> rw [hq] at hp <;> simp [Phase.resting] at hp

theorem maskedStream_of_read {s : State} (hp : s.phase = .read)
    (hw : writtenBytes s.portLog = maskbuf 0#64 (readBytes s.portLog))
    (ho : s.offset = BitVec.ofNat 64 (writtenBytes s.portLog).length) : s.MaskedStream := by
  constructor <;> intro hq <;> simp only [hp, reduceCtorEq] at hq
  exact ⟨hw, ho⟩

theorem maskedStream_of_mask {s : State} (hp : s.phase = .mask)
    (hw : writtenBytes s.portLog ++ maskbuf s.offset (bufChunk s) = maskbuf 0#64 (readBytes s.portLog))
    (ho : s.offset = BitVec.ofNat 64 (writtenBytes s.portLog).length) : s.MaskedStream := by
  constructor <;> intro hq <;> simp only [hp, reduceCtorEq] at hq
  exact ⟨hw, ho⟩

theorem maskedStream_of_write {s : State} (hp : s.phase = .write)
    (hw : writtenBytes s.portLog ++ bufChunk s = maskbuf 0#64 (readBytes s.portLog))
    (ho : s.offset = BitVec.ofNat 64 (writtenBytes s.portLog).length) : s.MaskedStream := by
  constructor <;> intro hq <;> simp only [hp, reduceCtorEq] at hq
  exact ⟨hw, ho⟩

theorem maskedStream_of_adv {s : State} (hp : s.phase = .adv)
    (hw : writtenBytes s.portLog = maskbuf 0#64 (readBytes s.portLog))
    (ho : s.offset + zext64 s.len = BitVec.ofNat 64 (writtenBytes s.portLog).length) : s.MaskedStream := by
  constructor <;> intro hq <;> simp only [hp, reduceCtorEq] at hq
  exact ⟨hw, ho⟩

/-- The relation speaks of PHASE, the record, OFFSET, LEN and the chunk only. -/
theorem State.MaskedStream.of_eq {s t : State} (h : s.MaskedStream) (hp : t.phase = s.phase)
    (hl : t.portLog = s.portLog) (ho : t.offset = s.offset) (hlen : t.len = s.len) (hc : bufChunk t = bufChunk s) :
    t.MaskedStream := by
  obtain ⟨hr, hm, hw, ha⟩ := h
  constructor <;> simpa only [hp, hl, ho, hlen, hc]

/-- Settles O44: reset is no running phase, of which alone the relation speaks. -/
theorem maskedStreamAtReset : Obligations.MaskedStreamAtReset :=
  maskedStream_of_none (.inr rfl)

/-- A length added to a position in the 64 bits of `OFFSET` (R86, R146). -/
theorem ofNat_add_zext64 (n : Nat) (w : Word) : BitVec.ofNat 64 n + zext64 w = BitVec.ofNat 64 (n + w.toNat) := by
  apply BitVec.eq_of_toNat_eq
  rw [add_zext64, BitVec.toNat_ofNat, BitVec.toNat_ofNat, BitVec.toNat_ofNat, Nat.mod_add_mod]

/-- What stands written is as long as what has been read and masked. -/
theorem masked_length {ws rs : List Byte} {o : Position} (h : ws = maskbuf o rs) : ws.length = rs.length := by
  rw [h, maskbuf_length]

/-- A step of the sequencer keeps the masked stream: a chunk read is masked at its own position, which is where the bytes
before it end (R127). -/
theorem MicroStep.maskedStream {s t : State} (h : MicroStep s t) (ho : s.PortOrder) (hs : s.MaskedStream) :
    t.MaskedStream := by
  cases h with
  | initConfig | readEnd | readFail | writeFail => exact maskedStream_of_none (.inr rfl)
  | initStart hp =>
    have hl := ho.initFresh hp
    apply maskedStream_of_read rfl <;> simp only [hl] <;> rfl
  | readWait _ hr => exact hs.of_eq rfl (by simp [srcCall_of_waiting hr]) rfl rfl rfl
  | readChunk b bs hp hr =>
    obtain ⟨hw, hoff⟩ := hs.atRead hp
    apply maskedStream_of_mask rfl
    · rw [bufChunk_readChunk hr]
      simp only [afterSrcRead_portLog, afterSrcRead_offset, srcCall_of_ok hr, writtenBytes_append, readBytes_append,
        writtenBytes_srcRead, readBytes_srcRead, writtenBytes_nil, readBytes_nil, List.append_nil]
      rw [maskbuf_append, ← hw, hoff, masked_length hw, BitVec.zero_add]
    · simp [srcCall_of_ok hr, hoff]
  | maskChunk hp =>
    obtain ⟨hw, hoff⟩ := hs.atMask hp
    refine maskedStream_of_write rfl ?_ hoff
    rw [bufChunk_maskChunk]
    exact hw
  | writeWait _ hr => exact hs.of_eq rfl (by simp [snkCall_of_waiting hr]) rfl rfl rfl
  | writeOk hp hr =>
    obtain ⟨hw, hoff⟩ := hs.atWrite hp
    apply maskedStream_of_adv rfl
    · simpa [snkCall_of_ok hr] using hw
    · simp only [afterSinkWrite_offset, afterSinkWrite_len, afterSinkWrite_portLog, snkCall_of_ok hr,
        writtenBytes_append, writtenBytes_sinkWrite, writtenBytes_nil, List.append_nil, List.length_append,
        bufChunk_length]
      rw [hoff, ofNat_add_zext64]
  | advance hp =>
    obtain ⟨hw, hoff⟩ := hs.atAdv hp
    exact maskedStream_of_read rfl hw hoff

/-- After a move of the host the block rests or stands before its first read. -/
theorem HostStep.phase {s t : State} {m : HostMove} (h : HostStep s m t) (hp : s.phase.resting = true) :
    t.phase = .init ∨ t.phase.resting = true := by
  cases h with
  | xform => exact .inl rfl
  | reserved | reset => exact .inr rfl
  | store off v width r =>
    rw [csrStore_frame]
    exact .inr hp
  | maskq | load | bind | bindEndless | bindAliased => exact .inr hp

/-- Settles O45, by what a step can do. -/
theorem maskedStreamKept : Obligations.MaskedStreamKept := by
  intro s t ho hs h
  obtain ⟨-, rfl⟩ | ⟨hp, m, rest, -, hm⟩ | ⟨hp, -, rfl⟩ | ⟨-, hm⟩ := step_next_cases h
  · exact maskedStream_of_none (.inr rfl)
  · exact maskedStream_of_none (hm.phase hp)
  · exact maskedStream_of_none (.inr hp)
  · exact hm.maskedStream ho.usedLevel (hs.of_eq rfl rfl rfl rfl rfl)

end Sys2Proof.Machine
end

section
namespace Sys2Proof.Machine

/-! Which instruction a step runs (R25, R82, R83). -/

/-- Without reset and without a move of the host, the step is the sequencer's. -/
theorem step_of_noMove {s : State} (hl : s.resetLine.head? ≠ some true) (hs : s.phase.resting = true → s.script = []) :
    step s = sequence (usedLevel s) := by
  rw [step, stepBoundary, if_neg hl, advance]
  by_cases hp : s.phase.resting = true
  · simp only [usedLevel_phase, hp, if_true, usedLevel_script, hs hp]
  · simp only [usedLevel_phase, hp, if_false, Bool.false_eq_true]

theorem submit_of_command {v : Word} {i : Instr} (h : decode (.cmd v) = .command i) (s : State) :
    submit v s = exec i s := by
  simp only [submit, h]

/-- Without reset a command word that the host writes to `CMD` runs at once (R83). -/
theorem step_of_command {s : State} {v : Word} {rest : List HostMove} {i : Instr} (hl : s.resetLine.head? ≠ some true)
    (hp : s.phase.resting = true) (hs : s.script = .write 0x00#32 32 v :: rest) (hd : decode (.cmd v) = .command i) :
    step s = exec i { usedLevel s with script := rest } := by
  rw [step_of_hostMove hl hp hs, hostMove_write_cmd, submit_of_command hd]

/-- Settles O9: `step_of_noMove` and `step_of_command`, with the used level written out. -/
theorem stepRunsDecodedInstruction : Obligations.StepRunsDecodedInstruction :=
  ⟨fun _ hl hs => step_of_noMove hl hs, fun _ _ _ _ hl hp hs hd => step_of_command hl hp hs hd⟩

theorem withFetchWord_of_code {nbits w : Nat} {c : Code} (h : tableCode nbits w = some c) (s : State) :
    s.withFetchWord nbits w = placeCode c s := by
  simp only [State.withFetchWord, h]

/-- A placed command word finds the block in a resting phase. -/
theorem placeCode_cmd_resting (v : Word) (s : State) : (placeCode (.cmd v) s).phase.resting = true := by
  simp only [placeCode]
  split
  · assumption
  · rfl

/-- No reset comes before a placed code. -/
theorem placeCode_noReset (c : Code) (s : State) : (placeCode c s).resetLine.head? ≠ some true := by
  cases c <;> nofun

/-- Settles O10, by the form of the word: a command word is the host's next move, a phase code is what `PHASE` holds. -/
theorem placedWordRunsNext : Obligations.PlacedWordRunsNext := by
  intro s nbits w i h
  obtain ⟨c, hc, hd⟩ := decodeTableWord_eq_some h
  rw [withFetchWord_of_code hc]
  cases c with
  | cmd v =>
    exact ⟨_, step_of_command (placeCode_noReset _ _) (placeCode_cmd_resting v s) rfl hd,
      rfl, rfl, rfl, rfl, rfl, rfl, rfl, rfl⟩
  | phase p =>
    cases hd
    refine ⟨usedLevel (placeCode (.phase p) s), ?_, rfl, rfl, rfl, rfl, rfl, rfl, rfl, rfl⟩
    rw [step_of_noMove (placeCode_noReset _ _) fun _ => rfl, sequence]
    show exec (decodePhase (phaseCode (phaseOfCode p))) _ = _
    rw [phaseCode_phaseOfCode]

/-! The commands and the ports (R83, R141, R195, R216). -/

theorem execXform_of_bound {s : State} (hp : s.phase.resting = true) (hb : s.binding = .bound) :
    execXform s = .next { clearErrors s with phase := .init } := by
  rw [execXform, if_pos hp, hb]

/-- Settles O11: both guards of XFORM are open, and `clearErrors` writes the three error fields. -/
theorem xformAccepted : Obligations.XformAccepted :=
  fun _ hp hb => execXform_of_bound hp hb

/-- Settles O12, by the two guards of XFORM: the phase first, then what is bound. MASKQ has the first one only. -/
theorem commandsRefused : Obligations.CommandsRefused := by
  refine ⟨fun s hp hb => ?_, fun s hp hb => ?_, fun s hp => ⟨?_, ?_⟩⟩
  · show execXform s = _
    rw [execXform, if_pos hp, hb]
  · show execXform s = _
    rw [execXform, if_pos hp, hb]
  · show execXform s = _
    rw [execXform, if_neg (by rw [hp]; decide)]
  · show execMaskq s = _
    rw [execMaskq, if_neg (by rw [hp]; decide)]

/-- Settles O20: READ and WRITE finish what the port call has already recorded; only a failed read draws once more. -/
theorem portCallsRecorded : Obligations.PortCallsRecorded := by
  refine ⟨fun s => ?_, fun s => ?_⟩
  · refine ⟨_, exec_read_of_reply rfl, ?_⟩
    cases hr : srcReply s.chunk s with
    | waiting => exact ⟨rfl, Nat.lt_succ_self _, by simp [finishRead, srcCall_of_waiting hr]⟩
    | failed code =>
      exact ⟨rfl, Nat.lt_succ_of_lt (Nat.lt_succ_self _), by simp [finishRead, srcCall_of_failed hr]⟩
    | ok bs =>
      cases bs with
      | nil => exact ⟨rfl, Nat.lt_succ_self _, by simp [finishRead, srcCall_of_ok hr]⟩
      | cons b bs => exact ⟨rfl, Nat.lt_succ_self _, by simp [finishRead, srcCall_of_ok hr]⟩
  · refine ⟨_, exec_write_of_reply rfl, ?_⟩
    cases hr : snkReply s with
    | waiting => exact ⟨rfl, Nat.lt_succ_self _, by simp [finishWrite, snkCall_of_waiting hr]⟩
    | ok => exact ⟨rfl, Nat.lt_succ_self _, by simp [finishWrite, snkCall_of_ok hr]⟩
    | failed code => exact ⟨rfl, Nat.lt_succ_self _, by simp [finishWrite, snkCall_of_failed hr]⟩

/-- Settles O21: without an answer the port gives, takes and records nothing. -/
theorem unansweredPortWaits : Obligations.UnansweredPortWaits := by
  refine ⟨fun s h => ?_, fun s h => ?_⟩
  · have hr : srcReply s.chunk s = .waiting := by simp only [srcReply, h]
    rw [exec_read_of_reply hr]
    simp [finishRead, afterSrcRead, srcLeft_of_waiting hr, srcEndless, h, srcCall_of_waiting hr]
  · have hr : snkReply s = .waiting := by simp only [snkReply, h]
    rw [exec_write_of_reply hr]
    simp [finishWrite, afterSinkWrite, snkTakes_of_waiting _ hr, snkCall_of_waiting hr]

/-- Settles O23: the three meanings are `.next s`. -/
theorem restingPhasesRest : Obligations.RestingPhasesRest :=
  fun _ => ⟨rfl, rfl, rfl⟩

/-- Settles O30: each bind is a move of the host that `connect` performs. -/
theorem bindConnectsStreams : Obligations.BindConnectsStreams :=
  fun _ _ _ _ hl hp => ⟨fun hs => step_of_hostMove hl hp hs, fun hs => step_of_hostMove hl hp hs⟩

/-- The sequencer has no step in a resting phase (R144, R147, R155). -/
theorem sequence_of_resting {s : State} (hp : s.phase.resting = true) : sequence s = .next s := by
  rw [sequence, decodePhase_phaseCode]
  cases hq : s.phase with rw [hq] at hp
  | idle | done | fail => rfl
  | init | read | mask | write | adv => cases hp

/-- In a resting phase a block whose host makes no move rests (R211). -/
theorem step_of_rest {s : State} (hp : s.phase.resting = true) (hs : s.script = []) (hl : s.resetLine.head? ≠ some true) :
    step s = .next (usedLevel s) := by
  exact (step_of_noMove hl fun _ => hs).trans (sequence_of_resting hp)

/-- Settles O35: `State.reset` is such a state, and it has no level of the reset input to use up. -/
theorem restsUntilHostMoves : Obligations.RestsUntilHostMoves :=
  ⟨step_of_rest rfl rfl nofun, fun _ hp hs hl => step_of_rest hp hs hl⟩

end Sys2Proof.Machine
end

section
namespace Sys2Proof.Machine

/-! The status word (R31). -/

/-- Concatenation as arithmetic. -/
theorem toNat_append_eq {m n : Nat} (x : BitVec m) (y : BitVec n) : (x ++ y).toNat = x.toNat * 2 ^ n + y.toNat := by
  rw [BitVec.toNat_append, ← Nat.shiftLeft_add_eq_or_of_lt y.isLt, Nat.shiftLeft_eq]

/-- Settles O25: the fields are concatenated, and the two constant ones are 0. -/
theorem statusWordValue : Obligations.StatusWordValue := by
  intro s
  simp only [statusWord, toNat_append_eq, BitVec.toNat_ofNat]
  omega

theorem statusWord_eq {s : State} {p : Phase} {k : ErrKind} {e : BitVec 1} (hp : s.phase = p) (hk : s.errkind = k)
    (he : s.errsite = e) : statusWord s = 0#24 ++ e ++ errkindCode k ++ 0#1 ++ phaseCode p := by
  rw [statusWord, hp, hk, he]

/-- Only FAIL shows a kind (R26). -/
theorem State.Inv.errkind_none {s : State} (h : s.Inv) (hp : s.phase ≠ .fail) : s.errkind = .none :=
  not_not.mp (mt h.failIffKind.mpr hp)

/-- Settles O26: the invariant gives the kind outside FAIL and the site of every kind but an IOFailure; the words are then
closed concatenations. -/
theorem statusInRest : Obligations.StatusInRest := by
  intro s h _
  have site {k : ErrKind} (hk : s.errkind = k) (hn : k ≠ .ioFailure) : s.errsite = 0#1 :=
    (h.quietUnlessIo (hk ▸ hn)).1
  have clear {p : Phase} (hp : s.phase = p) (hf : p ≠ .fail) :
      statusWord s = 0#24 ++ 0#1 ++ errkindCode .none ++ 0#1 ++ phaseCode p :=
    have hk := h.errkind_none (hp ▸ hf)
    statusWord_eq hp hk (site hk nofun)
  exact ⟨fun hp => clear hp nofun, fun hp => clear hp nofun, fun hp hk => statusWord_eq hp hk (site hk nofun),
    fun hp hk he => statusWord_eq hp hk he, fun hp hk he => statusWord_eq hp hk he,
    fun hp hk => statusWord_eq hp hk (site hk nofun), h.failIffKind.mp⟩

end Sys2Proof.Machine
end

section
namespace Sys2Proof.Machine

/-! The register bank (R30 to R37). -/

/-- The register at an aligned offset of the window. -/
theorem regAt_of_aligned {off : Word} (ha : off.toNat % 4 = 0) (hw : off.toNat ≤ 0xFC) :
    regAt off 32 = some (
      if off = 0x00#32 then .cmd
      else if off = 0x04#32 then .status
      else if off = 0x08#32 then .chunk
      else if off = 0x0C#32 then .iocode
      else if off = 0x10#32 then .offsetLo
      else if off = 0x14#32 then .offsetHi
      else if off = 0x18#32 then .posLo
      else if off = 0x1C#32 then .posHi
      else if off = 0x20#32 then .maskval
      else .reserved) := by
  rw [regAt, if_pos ⟨rfl, ha, by omega⟩]
  simp only [BitVec.toNat_eq, BitVec.toNat_ofNat]
  split <;> simp_all

theorem lowHalf_eq (p : Position) : lowHalf p = p.setWidth 32 :=
  (BitVec.setWidth_eq_extractLsb' (by decide)).symm

theorem highHalf_eq (p : Position) : highHalf p = (p >>> 32).setWidth 32 :=
  BitVec.setWidth_ushiftRight_eq_extractLsb.symm

@[simp] theorem lowHalf_joinHalves (hi lo : Word) : lowHalf (joinHalves hi lo) = lo :=
  BitVec.extractLsb'_append_eq_right

@[simp] theorem highHalf_joinHalves (hi lo : Word) : highHalf (joinHalves hi lo) = hi :=
  BitVec.extractLsb'_append_eq_left

theorem hostRead_of_regAt {off : Word} {width : Nat} {r : Reg} (h : regAt off width = some r) (s : State) :
    hostRead off width s = .next { s with reads := s.reads ++ [csrValue r s] } := by
  simp only [hostRead, h]

theorem hostWrite_of_regAt {off v : Word} {width : Nat} {r : Reg} (h : regAt off width = some r) (hc : r ≠ .cmd)
    (s : State) : hostWrite off width v s = .next (csrStore r v s) := by
  cases r with
  | cmd => exact absurd rfl hc
  | status | chunk | iocode | offsetLo | offsetHi | posLo | posHi | maskval | reserved => simp only [hostWrite, h]

/-- The value a host's read returns at an aligned offset of the window (R31 to R37). -/
theorem csrValue_of_aligned {off : Word} {r : Reg} (s : State) (h : regAt off 32 = some r) (ha : off.toNat % 4 = 0)
    (hw : off.toNat ≤ 0xFC) : csrValue r s =
      if off = 0x04#32 then statusWord s
      else if off = 0x08#32 then s.chunk
      else if off = 0x0C#32 then s.iocode
      else if off = 0x10#32 then s.offset.setWidth 32
      else if off = 0x14#32 then (s.offset >>> 32).setWidth 32
      else if off = 0x18#32 then s.pos.setWidth 32
      else if off = 0x1C#32 then (s.pos >>> 32).setWidth 32
      else if off = 0x20#32 then s.maskval.setWidth 32
      else 0#32 := by
  rw [regAt_of_aligned ha hw] at h
  cases h
  by_cases h0 : off = 0x00#32
  · subst h0; rfl
  · rw [if_neg h0]
    split_ifs <;> simp only [csrValue, lowHalf_eq, highHalf_eq]

/-- Settles O27: the register at the offset, then its value. -/
theorem registerReads : Obligations.RegisterReads := by
  intro s off rest hl hp hs ha hw
  have hr := regAt_of_aligned ha hw
  rw [step_of_hostMove hl hp hs, hostMove, hostRead_of_regAt hr, ← csrValue_of_aligned s hr ha hw]
  rfl

/-- What a write to an aligned offset of the window does to CHUNK and to the halves of POS (R33, R35, R37). -/
theorem csrStore_of_aligned {off : Word} {r : Reg} (s : State) (v : Word) (h : regAt off 32 = some r)
    (ha : off.toNat % 4 = 0) (hw : off.toNat ≤ 0xFC) :
    ((csrStore r v s).chunk = if off = 0x08#32 then v else s.chunk) ∧
    (lowHalf (csrStore r v s).pos = if off = 0x18#32 then v else lowHalf s.pos) ∧
    (highHalf (csrStore r v s).pos = if off = 0x1C#32 then v else highHalf s.pos) := by
  rw [regAt_of_aligned ha hw] at h
  cases h
  split_ifs <;> simp_all [csrStore]

/-- Settles O28: the frame is that of `csrStore`, the values those of the register at the offset. -/
theorem registerWrites : Obligations.RegisterWrites := by
  intro s off v rest hl hp hs ha hw h0
  have hr := regAt_of_aligned ha hw
  obtain ⟨hchunk, hlo, hhi⟩ := csrStore_of_aligned { usedLevel s with script := rest } v hr ha hw
  have hc := mt (fun he => (regAt_cmd.mp (hr.trans (congrArg some he))).1) h0
  refine ⟨_, (step_of_hostMove hl hp hs).trans (hostWrite_of_regAt hr hc _), csrStore_frame _ _ _, hchunk, ?_, ?_⟩
  · rw [← lowHalf_eq, ← lowHalf_eq]; exact hlo
  · rw [← highHalf_eq, ← highHalf_eq]; exact hhi

/-- Settles O29: an access that is not well formed reaches no register, whichever way it goes. -/
theorem nonAccessRefused : Obligations.NonAccessRefused := by
  intro s off v width rest hl hp hw
  have hr : regAt off width = none := by
    rw [← Option.not_isSome_iff_eq_none, regAt_isSome, hw]
    decide
  refine ⟨fun hs => ?_, fun hs => ?_⟩ <;> rw [step_of_hostMove hl hp hs]
  · simp only [hostMove, hostWrite, hr]
  · simp only [hostMove, hostRead, hr]

end Sys2Proof.Machine
end

section
namespace Sys2Proof.Machine

/-! What a step leaves unchanged, by who acts. -/

/-- The sequencer leaves the host's side and the host's registers alone (R24, R29, R217). -/
theorem MicroStep.hostSide {s t : State} (h : MicroStep s t) :
    t.script = s.script ∧ t.reads = s.reads ∧ t.resetLine = s.resetLine ∧ t.chunk = s.chunk ∧ t.pos = s.pos ∧
      t.maskval = s.maskval := by
  cases h <;> exact ⟨rfl, rfl, rfl, rfl, rfl, rfl⟩

/-- The end of a run, and only that, ends the binding (R216; log 14). -/
theorem MicroStep.binding {s t : State} (h : MicroStep s t) :
    t.binding = if t.phase.resting then .unbound else s.binding := by
  have hrun := h.running
  cases h with
  | initConfig | readEnd | readFail | writeFail | initStart | readChunk | maskChunk | writeOk | advance => rfl
  | readWait | writeWait => simp [hrun]

/-- In the sequencer OFFSET is for INIT and ADV, the source for READ, the sink for WRITE (R21, R39). -/
theorem MicroStep.writers {s t : State} (h : MicroStep s t) :
    (t.offset ≠ s.offset → s.phase = .init ∨ s.phase = .adv) ∧
    (t.src ≠ s.src ∨ t.endless ≠ s.endless → s.phase = .read) ∧
    (t.snk ≠ s.snk → s.phase = .write) := by
  cases h with
  | initConfig hp | initStart hp | readWait hp | readEnd hp | readChunk _ _ hp | readFail _ hp | maskChunk hp
  | writeWait hp | writeOk hp | writeFail _ hp | advance hp => simp [hp]

/-- In the sequencer the error fields change with a failure only (R185, R189). -/
theorem MicroStep.errors {s t : State} (h : MicroStep s t) :
    (t.errkind = s.errkind ∧ t.errsite = s.errsite ∧ t.iocode = s.iocode) ∨
    (s.phase = .init ∧ s.chunk = 0#32) ∨
    (s.phase = .read ∧ ∃ code, srcReply s.chunk s = .failed code) ∨
    (s.phase = .write ∧ ∃ code, snkReply s = .failed code) := by
  cases h with
  | initConfig hp hc => exact .inr (.inl ⟨hp, hc⟩)
  | readFail code hp hr => exact .inr (.inr (.inl ⟨hp, code, hr⟩))
  | writeFail code hp hr => exact .inr (.inr (.inr ⟨hp, code, hr⟩))
  | initStart | readWait | readEnd | readChunk | maskChunk | writeWait | writeOk | advance => exact .inl ⟨rfl, rfl, rfl⟩

/-- A register that is not one of the reserved ones stands at its own offset (R30). -/
theorem off_of_regAt {off : Word} {width : Nat} {r : Reg} (h : regAt off width = some r) (hr : r ≠ .reserved) :
    off = regOffset r ∧ width = 32 := by
  unfold regAt at h
  split at h
  · next hc =>
    split at h <;> cases h <;> first
      | exact ⟨BitVec.eq_of_toNat_eq (by assumption), hc.1⟩
      | exact absurd rfl hr
  · cases h

theorem csrStore_chunk_ne {r : Reg} {v : Word} {s : State} (h : (csrStore r v s).chunk ≠ s.chunk) : r = .chunk := by
  cases r <;> first | rfl | exact absurd rfl h

theorem csrStore_pos_ne {r : Reg} {v : Word} {s : State} (h : (csrStore r v s).pos ≠ s.pos) :
    r = .posLo ∨ r = .posHi := by
  cases r <;> first | exact .inl rfl | exact .inr rfl | exact absurd rfl h

/-- Settles O31, by who acts: the sequencer, a move of the host by its kind, or the reset input. -/
theorem bindingLastsOneRun : Obligations.BindingLastsOneRun := by
  refine ⟨fun s t hl h hp => ((step_iff_microStep hl hp).mp h).binding, fun s t hl h hp => ?_, fun s t hl h => ?_⟩
  · obtain ⟨hl', -⟩ | ⟨-, m, rest, hs, hm⟩ | ⟨-, hs, rfl⟩ | ⟨hr, -⟩ := step_next_cases h
    · exact absurd hl' hl
    · rw [hs]
      cases hm with
      | store off v width r => rw [csrStore_frame]; rfl
      | xform | maskq | reserved | load | bind | bindEndless | bindAliased | reset => rfl
    · rw [hs]; rfl
    · rw [hp] at hr; cases hr
  · rw [step_of_resetLine hl] at h
    cases h
    rfl

/-- Settles O32: with reset the step is the reset, without it the sequencer's, which is never refused. -/
theorem hostBlockedInRun : Obligations.HostBlockedInRun := by
  intro s hp
  by_cases hl : s.resetLine.head? = some true
  · exact ⟨_, step_of_resetLine hl, rfl, rfl, rfl, fun hn => absurd hl hn⟩
  · obtain ⟨t, ht⟩ := exec_running_next (s := usedLevel s) hp
    have hm := microStep_of_exec (s := usedLevel s) hp ht
    obtain ⟨hscript, hreads, hline, hchunk, hpos, hmask⟩ := hm.hostSide
    exact ⟨t, (step_of_running hl hp).trans ht, hscript, hreads, hline, fun _ => ⟨hchunk, hpos, hmask⟩⟩

/-- Settles O37, by who acts; of the host's moves the register write is told apart by its register. -/
theorem registerWriters : Obligations.RegisterWriters := by
  intro s t hl hreset h
  obtain ⟨hl', -⟩ | ⟨hp, m, rest, hs, hm⟩ | ⟨-, -, rfl⟩ | ⟨-, hm⟩ := step_next_cases h
  · exact absurd hl' hl
  · rw [hs] at hreset ⊢
    cases hm with
    | store off v width r hr =>
      rw [csrStore_frame]
      refine ⟨fun hn => absurd rfl hn, fun hn => ?_, fun hn => ?_, fun hn => absurd rfl hn,
        fun hn => absurd rfl (hn.resolve_left (absurd rfl)), fun hn => absurd rfl hn⟩
      · have hc := csrStore_chunk_ne hn
        subst hc
        obtain ⟨rfl, rfl⟩ := off_of_regAt hr nofun
        exact ⟨hp, v, rfl⟩
      · obtain rfl | rfl := csrStore_pos_ne hn
        · obtain ⟨rfl, rfl⟩ := off_of_regAt hr nofun
          exact ⟨hp, _, v, rfl, .inl rfl⟩
        · obtain ⟨rfl, rfl⟩ := off_of_regAt hr nofun
          exact ⟨hp, _, v, rfl, .inr rfl⟩
    | reset => exact absurd rfl hreset
    | xform | maskq | reserved | load | bind | bindEndless | bindAliased => simp [hp]
  · simp
  · obtain ⟨hoffset, hsrc, hsnk⟩ := hm.writers
    obtain ⟨-, -, -, hchunk, hpos, hmask⟩ := hm.hostSide
    exact ⟨hoffset, fun hn => absurd hchunk hn, fun hn => absurd hpos hn, fun hn => absurd hmask hn,
      fun hn => .inl (hsrc hn), fun hn => .inl (hsnk hn)⟩

/-- Settles O38, by who acts: of the host's moves XFORM and a reserved word touch the error fields, and both are command words
other than MASKQ. -/
theorem errorFieldsSticky : Obligations.ErrorFieldsSticky := by
  intro s t hl hreset h
  obtain ⟨hl', -⟩ | ⟨hp, m, rest, hs, hm⟩ | ⟨-, -, rfl⟩ | ⟨-, hm⟩ := step_next_cases h
  · exact absurd hl' hl
  · rw [hs] at hreset ⊢
    cases hm with
    | xform => exact .inr (.inr (.inr (.inr ⟨hp, _, rfl, by decide⟩)))
    | reserved v h2 => exact .inr (.inr (.inr (.inr ⟨hp, v, rfl, h2⟩)))
    | store off v width r =>
      rw [csrStore_frame]
      exact .inl ⟨rfl, rfl, rfl⟩
    | reset => exact absurd rfl hreset
    | maskq | load | bind | bindEndless | bindAliased => exact .inl ⟨rfl, rfl, rfl⟩
  · exact .inl ⟨rfl, rfl, rfl⟩
  · obtain hsame | hinit | hread | hwrite := hm.errors
    · exact .inl hsame
    · exact .inr (.inl hinit)
    · exact .inr (.inr (.inl hread))
    · exact .inr (.inr (.inr (.inl hwrite)))

/-- Settles O39, by the instruction: the next states of each are those its inversion lemma lists, and the fields it is not said
to write read the same there. -/
theorem execFrame : Obligations.ExecFrame := by
  intro i s t h
  cases i with
  | xform => obtain ⟨-, -, rfl⟩ := execXform_cases h; simp
  | maskq => obtain ⟨-, rfl⟩ := execMaskq_cases h; simp
  | init => obtain ⟨-, rfl⟩ | ⟨-, rfl⟩ := execInit_cases h <;> simp
  | read =>
    obtain ⟨-, rfl⟩ | ⟨-, rfl⟩ | ⟨b, bs, -, rfl⟩ | ⟨code, -, rfl⟩ := execRead_cases h <;> simp
  | write => obtain ⟨-, rfl⟩ | ⟨-, rfl⟩ | ⟨code, -, rfl⟩ := execWrite_cases h <;> simp
  | idle | done | fail | mask | adv => cases h; simp

end Sys2Proof.Machine
end

section
namespace Sys2Proof.Machine

/-! A run, step by step (R158). -/

theorem runToRest_of_resting {s : State} (hp : s.phase.resting = true) (k : Nat) : runToRest k s = some s := by
  cases k <;> exact if_pos hp

theorem runToRest_of_step {s u : State} (hp : s.phase.resting = false) (h : step s = .next u) (k : Nat) :
    runToRest (k + 1) s = runToRest k u := by
  rw [runToRest, if_neg (by rw [hp]; decide), h]

theorem runToRest_zero_of_running {s : State} (hp : s.phase.resting = false) : runToRest 0 s = none :=
  if_neg (by rw [hp]; decide)

theorem runEnds_of_resting {s : State} (hp : s.phase.resting = true) : RunEnds s s :=
  ⟨0, runToRest_of_resting hp 0⟩

theorem runEnds_of_step {s u t : State} (hp : s.phase.resting = false) (h : step s = .next u) (he : RunEnds u t) :
    RunEnds s t := by
  obtain ⟨k, hk⟩ := he
  exact ⟨k + 1, (runToRest_of_step hp h k).trans hk⟩

/-- A run that ends has ended already, or takes a step first. -/
theorem runToRest_cases {k : Nat} {s t : State} (h : runToRest k s = some t) :
    (s.phase.resting = true ∧ t = s) ∨
    (s.phase.resting = false ∧ ∃ j u, k = j + 1 ∧ step s = .next u ∧ runToRest j u = some t) := by
  cases hp : s.phase.resting with
  | true =>
    rw [runToRest_of_resting hp] at h
    exact .inl ⟨rfl, (Option.some.inj h).symm⟩
  | false =>
    cases k with
    | zero => rw [runToRest_zero_of_running hp] at h; cases h
    | succ j =>
      cases hu : step s with
      | next u => exact .inr ⟨rfl, j, u, rfl, rfl, (runToRest_of_step hp hu j).symm.trans h⟩
      | fault r | refused r =>
        rw [runToRest, if_neg (by rw [hp]; decide), hu] at h
        cases h

/-- A run that ends at `t` gets there by a last step. What holds at its beginning and is kept by every step within it holds
before the last one. -/
theorem RunEnds.last_step {P : State → Prop} {s t : State} (h : RunEnds s t) (hp : s.phase.resting = false) (hs : P s)
    (keep : ∀ u v, P u → u.phase.resting = false → step u = .next v → v.phase.resting = false → P v) :
    ∃ u, P u ∧ u.phase.resting = false ∧ step u = .next t := by
  obtain ⟨k, hk⟩ := h
  induction k generalizing s with
  | zero => rw [runToRest_zero_of_running hp] at hk; cases hk
  | succ k ih =>
    obtain ⟨hr, -⟩ | ⟨-, j, u, hj, hu, hk⟩ := runToRest_cases hk
    · cases hp.symm.trans hr
    · cases hj
      cases hq : u.phase.resting with
      | false => exact ih hq (keep s u hs hp hu hq) hk
      | true =>
        rw [runToRest_of_resting hq] at hk
        cases hk
        exact ⟨s, hs, hp, hu⟩

/-- The level used up at a boundary asserts no later reset. -/
theorem not_mem_usedLevel {s : State} (h : true ∉ s.resetLine) : true ∉ (usedLevel s).resetLine :=
  fun hm => h (List.mem_of_mem_tail hm)

theorem head?_ne_of_not_mem {l : List Bool} (h : true ∉ l) : l.head? ≠ some true :=
  fun hh => h (List.mem_of_head? hh)

/-- The state in which an accepted XFORM begins its run (R141). -/
theorem exec_xform_cases {s s1 : State} (h : exec .xform s = .next s1) :
    s.phase.resting = true ∧ s.binding = .bound ∧ s1 = { clearErrors s with phase := .init } :=
  execXform_cases h

/-- A transform ends by a step of the sequencer; what holds at its beginning and is kept by the sequencer's steps holds
before the last one. -/
theorem Transforms.last_microStep {P : State → Prop} {s s1 t : State} (h : Transforms s s1 t)
    (level : ∀ u, P u → P (usedLevel u)) (start : P s1)
    (keep : ∀ u v, P u → MicroStep u v → v.phase.resting = false → P v) : ∃ u, P u ∧ MicroStep u t := by
  obtain ⟨hacc, hno, hend⟩ := h
  obtain ⟨-, -, rfl⟩ := exec_xform_cases hacc
  have within (u v : State) (hu : P u ∧ true ∉ u.resetLine) (hp : u.phase.resting = false) (hstep : step u = .next v)
      (hq : v.phase.resting = false) : P v ∧ true ∉ v.resetLine := by
    obtain ⟨hu, hline⟩ := hu
    have hm := (step_iff_microStep (head?_ne_of_not_mem hline) hp).mp hstep
    obtain ⟨-, -, hl, -⟩ := hm.hostSide
    exact ⟨keep _ v (level u hu) hm hq, hl ▸ not_mem_usedLevel hline⟩
  obtain ⟨u, ⟨hu, hline⟩, hp, hstep⟩ := hend.last_step rfl ⟨start, hno⟩ within
  exact ⟨usedLevel u, level u hu, (step_iff_microStep (head?_ne_of_not_mem hline) hp).mp hstep⟩

/-! What a step of the sequencer that does not fail does to the account of the two streams. -/

/-- What has been read with what is left in a source that ends is its input; the sink grows by what the record says was
written; the error fields stay. -/
theorem MicroStep.account {s t : State} (h : MicroStep s t) (hf : t.phase ≠ .fail) :
    t.endless = s.endless ∧
    (s.endless = false → readBytes t.portLog ++ t.src = readBytes s.portLog ++ s.src) ∧
    (∃ w, t.snk = s.snk ++ w ∧ writtenBytes t.portLog = writtenBytes s.portLog ++ w) ∧
    t.errkind = s.errkind ∧ t.errsite = s.errsite ∧ t.iocode = s.iocode := by
  have unwritten (w : List Byte) : w = w ++ [] := (List.append_nil w).symm
  cases h with
  | initConfig | readFail | writeFail => exact absurd rfl hf
  | initStart | maskChunk | advance => exact ⟨rfl, fun _ => rfl, ⟨[], unwritten _, unwritten _⟩, rfl, rfl, rfl⟩
  | readWait hp hr =>
    have hc := srcCall_of_waiting hr
    refine ⟨srcEndless_of_not_failed (n := s.chunk) fun _ hn => ?_, fun _ => ?_, ⟨[], unwritten _, ?_⟩, rfl, rfl, rfl⟩
    · cases hr.symm.trans hn
    · simp [srcLeft_of_waiting hr, hc]
    · simp [hc]
  | readEnd hp hr | readChunk b bs hp hr =>
    obtain ⟨hsplit, -, hc, -⟩ := srcReply_ok hr
    refine ⟨afterSrcRead_endless_of_ok hr, fun he => ?_, ⟨[], unwritten _, ?_⟩, rfl, rfl, rfl⟩
    · rw [srcHeld_of_finite s.chunk he] at hsplit
      simp [hc, ← hsplit]
    · simp [hc]
  | writeWait hp hr =>
    have hc := snkCall_of_waiting (bs := bufChunk s) hr
    exact ⟨rfl, fun _ => by simp [hc], ⟨[], by simp [snkTakes_of_waiting _ hr], by simp [hc]⟩, rfl, rfl, rfl⟩
  | writeOk hp hr =>
    have hc := snkCall_of_ok (bs := bufChunk s) hr
    exact ⟨rfl, fun _ => by simp [hc], ⟨bufChunk s, by simp [snkTakes_of_ok _ hr], by simp [hc]⟩, rfl, rfl, rfl⟩

/-- Past INIT a run has a non-zero `CHUNK` (R142). -/
theorem MicroStep.chunk_ne_zero {s t : State} (h : MicroStep s t) (hs : s.phase ≠ .init → s.chunk ≠ 0#32)
    (hf : t.phase ≠ .fail) : t.chunk ≠ 0#32 := by
  obtain ⟨-, -, -, hchunk, -⟩ := h.hostSide
  rw [hchunk]
  cases h with
  | initConfig | readFail | writeFail => exact absurd rfl hf
  | initStart _ hc => exact hc
  | readWait hp | readEnd hp | readChunk _ _ hp | maskChunk hp | writeWait hp | writeOk hp | advance hp =>
    exact hs (by simp [hp])

end Sys2Proof.Machine
end

section
namespace Sys2Proof.Machine

/-! How far a run has come (R149, R153). -/

/-- The chunk `last`, read after the calls `pre`, is in the buffer's place and not yet written. -/
structure State.Holds (u : State) (pre : List PortCall) (last : List Byte) : Prop where
  log : u.portLog = pre ++ [.srcRead u.chunk last]
  earlier : writtenBytes pre = maskbuf 0#64 (readBytes pre)
  place : u.offset = BitVec.ofNat 64 (readBytes pre).length
  nonempty : 1 ≤ last.length
  fits : last.length ≤ u.chunk.toNat

/-- A run accepted at `s` stands at `u`. -/
structure Progress (s u : State) : Prop where
  order : u.PortOrder
  masked : u.MaskedStream
  chunk : u.chunk = s.chunk
  started : u.phase ≠ .init → u.chunk ≠ 0#32
  untouched : u.phase = .init → u.src = s.src
  endless : u.endless = s.endless
  taken : s.endless = false → s.src = readBytes u.portLog ++ u.src
  given : u.snk = s.snk ++ writtenBytes u.portLog
  quiet : u.errkind = .none ∧ u.errsite = 0#1 ∧ u.iocode = 0#32
  atMask : u.phase = .mask → ∃ pre last, u.Holds pre last ∧ bufChunk u = last
  atWrite : u.phase = .write → ∃ pre last, u.Holds pre last ∧ bufChunk u = maskbuf u.offset last

theorem State.Holds.of_eq {u v : State} {pre : List PortCall} {last : List Byte} (h : u.Holds pre last)
    (hl : v.portLog = u.portLog) (hc : v.chunk = u.chunk) (ho : v.offset = u.offset) : v.Holds pre last := by
  obtain ⟨hlog, hearlier, hplace, hne, hfits⟩ := h
  constructor <;> simpa only [hl, hc, ho]

theorem progress_start {s s1 : State} (h : exec .xform s = .next s1) (ho : s.PortOrder) : Progress s s1 := by
  obtain ⟨hp, hb, rfl⟩ := exec_xform_cases h
  have hl := ho.boundFresh hp hb
  exact
    { order := portOrder_of_fresh hl (.inl rfl)
      masked := maskedStream_of_none (.inl rfl)
      chunk := rfl
      started := absurd rfl
      untouched := fun _ => rfl
      endless := rfl
      taken := fun _ => by simp [hl]
      given := by simp [hl]
      quiet := ⟨rfl, rfl, rfl⟩
      atMask := nofun
      atWrite := nofun }

theorem Progress.usedLevel {s u : State} (h : Progress s u) : Progress s (usedLevel u) where
  order := h.order.usedLevel
  masked := h.masked.of_eq rfl rfl rfl rfl rfl
  chunk := h.chunk
  started := h.started
  untouched := h.untouched
  endless := h.endless
  taken := h.taken
  given := h.given
  quiet := h.quiet
  atMask hp := let ⟨pre, last, hh, hb⟩ := h.atMask hp; ⟨pre, last, hh.of_eq rfl rfl rfl, hb⟩
  atWrite hp := let ⟨pre, last, hh, hb⟩ := h.atWrite hp; ⟨pre, last, hh.of_eq rfl rfl rfl, hb⟩

/-- The chunk just read stands where the bytes before it end. -/
theorem Progress.holds_readChunk {s u v : State} (h : Progress s u) (hm : MicroStep u v) (hp : v.phase = .mask) :
    ∃ pre last, v.Holds pre last ∧ bufChunk v = last := by
  cases hm with
  | readWait hq | writeWait hq => cases hq.symm.trans hp
  | initConfig | initStart | readEnd | readFail | maskChunk | writeOk | writeFail | advance => cases hp
  | readChunk b bs hq hr =>
    obtain ⟨hw, ho⟩ := h.masked.atRead hq
    obtain ⟨-, hlen, hc, -⟩ := srcReply_ok hr
    have hplace : u.offset = BitVec.ofNat 64 (readBytes u.portLog).length := by rw [ho, masked_length hw]
    exact ⟨u.portLog, b :: bs, ⟨congrArg (u.portLog ++ ·) hc, hw, hplace, Nat.succ_pos _, hlen⟩, bufChunk_readChunk hr⟩

/-- In WRITE the chunk in the buffer is the one read, masked at its place, however long the sink takes. -/
theorem Progress.holds_maskChunk {s u v : State} (h : Progress s u) (hm : MicroStep u v) (hp : v.phase = .write) :
    ∃ pre last, v.Holds pre last ∧ bufChunk v = maskbuf v.offset last := by
  cases hm with
  | readWait hq => cases hq.symm.trans hp
  | initConfig | initStart | readEnd | readChunk | readFail | writeOk | writeFail | advance => cases hp
  | maskChunk hq =>
    obtain ⟨pre, last, hh, hb⟩ := h.atMask hq
    exact ⟨pre, last, hh.of_eq rfl rfl rfl, (bufChunk_maskChunk u).trans (by rw [hb])⟩
  | writeWait hq hr =>
    obtain ⟨pre, last, hh, hb⟩ := h.atWrite hq
    exact ⟨pre, last, hh.of_eq (by simp [snkCall_of_waiting hr]) rfl rfl, hb⟩

/-- No step leads into INIT. -/
theorem MicroStep.phase_ne_init {s t : State} (h : MicroStep s t) : t.phase ≠ .init := by
  cases h with
  | initConfig | initStart | readEnd | readChunk | readFail | maskChunk | writeOk | writeFail | advance => nofun
  | readWait hp | writeWait hp => exact fun hq => by cases hp.symm.trans hq

/-- A step of the sequencer within a run carries it on. -/
theorem Progress.microStep {s u v : State} (h : Progress s u) (hm : MicroStep u v) (hv : v.phase ≠ .fail) :
    Progress s v := by
  obtain ⟨hend, htaken, ⟨w, hsnk, hwritten⟩, hk, he, hi⟩ := hm.account hv
  obtain ⟨-, -, -, hchunk, -⟩ := hm.hostSide
  exact
    { order := hm.portOrder h.order
      masked := hm.maskedStream h.order h.masked
      chunk := hchunk.trans h.chunk
      started := fun _ => hm.chunk_ne_zero h.started hv
      untouched := fun hp => absurd hp hm.phase_ne_init
      endless := hend.trans h.endless
      taken := fun hf => (h.taken hf).trans (htaken (h.endless.trans hf)).symm
      given := by rw [hsnk, hwritten, h.given, List.append_assoc]
      quiet := by rw [hk, he, hi]; exact h.quiet
      atMask := h.holds_readChunk hm
      atWrite := h.holds_maskChunk hm }

/-- Before the last step of a run it has come some way. -/
theorem Transforms.progress {s s1 t : State} (h : Transforms s s1 t) (ho : s.PortOrder) :
    ∃ u, Progress s u ∧ MicroStep u t :=
  h.last_microStep (P := Progress s) (fun _ hu => hu.usedLevel) (progress_start h.accepted ho)
    fun _ _ hu hm hv => hu.microStep hm fun hf => by rw [hf] at hv; cases hv

/-- The source answers with no byte exactly if it ends and has none. -/
theorem src_of_end {s : State} (hc : s.chunk ≠ 0#32) (hr : srcReply s.chunk s = .ok []) :
    s.endless = false ∧ s.src = [] ∧ srcLeft s.chunk s = [] := by
  obtain ⟨hsplit, -, -, hnil⟩ := srcReply_ok hr
  have hheld := (hnil hc).mp rfl
  have he : s.endless = false := by
    by_contra hn
    have hlen := srcHeld_of_endless s.chunk (Bool.not_eq_false _ ▸ hn)
    rw [hheld] at hlen
    exact absurd (word_ne_zero hc) (by simpa using hlen)
  exact ⟨he, src_nil_of_srcHeld_nil hheld, hsplit.trans hheld⟩

/-- A run reaches DONE by an empty answer of the source. -/
theorem MicroStep.into_done {s t : State} (h : MicroStep s t) (hd : t.phase = .done) :
    s.phase = .read ∧ srcReply s.chunk s = .ok [] ∧
      t = release { afterSrcRead s.chunk s with len := 0#32, phase := .done } := by
  cases h with
  | readEnd hp hr => exact ⟨hp, hr, rfl⟩
  | readWait hp | writeWait hp => cases hp.symm.trans hd
  | initConfig | initStart | readChunk | readFail | maskChunk | writeOk | writeFail | advance => cases hd

/-- After an even number of calls in turn there are as many reads as writes. -/
theorem reads_eq_writes {isRead isWrite : PortCall → Bool} (hrr : ∀ n bs, isRead (.srcRead n bs) = true)
    (hrw : ∀ bs, isRead (.sinkWrite bs) = false) (hwr : ∀ n bs, isWrite (.srcRead n bs) = false)
    (hww : ∀ bs, isWrite (.sinkWrite bs) = true) :
    ∀ l : List PortCall, callsAlternate true l = true → l.length % 2 = 0 →
      (l.filter isRead).length = (l.filter isWrite).length
  | [], _, _ => rfl
  | [_], _, he => by cases he
  | .srcRead n bs :: .sinkWrite bs' :: l, ha, he => by
    have ih := reads_eq_writes hrr hrw hwr hww l ha (by simp only [List.length_cons] at he; omega)
    simp [hrr, hrw, hwr, hww, ih]
  | .srcRead _ _ :: .srcRead _ _ :: _, ha, _ => by cases ha
  | .sinkWrite _ :: _ :: _, ha, _ => by cases ha

/-- Settles O46: the last step is the READ whose answer is empty; what was read before it is the whole input, and what was
written is that, masked. -/
theorem runResult : Obligations.RunResult := by
  intro s s1 t h ho hd
  obtain ⟨u, hu, hm⟩ := h.progress ho
  obtain ⟨hp, hr, rfl⟩ := hm.into_done hd
  obtain ⟨hend, hsrc, hleft⟩ := src_of_end (hu.started (by simp [hp])) hr
  obtain ⟨hw, hoff⟩ := hu.masked.atRead hp
  obtain ⟨hk, he, hi⟩ := hu.quiet
  have hin : s.src = readBytes u.portLog := by
    rw [hu.taken (hu.endless ▸ hend), hsrc, List.append_nil]
  refine ⟨hu.endless ▸ hend, ?_, ?_, hk, he, hi, rfl, hleft, _, ?_, rfl⟩
  · exact hu.given.trans (by rw [hw, hin])
  · exact hoff.trans (by rw [masked_length hw, hin])
  · simp only [release_portLog, afterSrcRead_portLog, srcCall_of_ok hr, List.filter_append, List.length_append]
    refine congrArg (· + 1) (reads_eq_writes ?_ ?_ ?_ ?_ _ hu.order.alternate (hu.order.readTurn (.inl hp))) <;>
      (intros; rfl)

end Sys2Proof.Machine
end

section
namespace Sys2Proof.Machine

/-! What follows from the result of a run. -/

/-- Settles O48: both results are functions of the input and of what the sink held. -/
theorem chunkingInvariance : Obligations.ChunkingInvariance := by
  intro s s1 t s' s1' t' h h' ho ho' hd hd' hsrc hsnk
  obtain ⟨-, hout, hoff, -⟩ := runResult s s1 t h ho hd
  obtain ⟨-, hout', hoff', -⟩ := runResult s' s1' t' h' ho' hd'
  exact ⟨by rw [hout, hout', hsrc, hsnk], by rw [hoff, hoff', hsrc]⟩

/-- Settles O49: masking twice from position 0 is the identity (R127). -/
theorem roundTrip : Obligations.RoundTrip := by
  intro s s1 t s' s1' t' h h' ho ho' hd hd' hsnk hsnk' hchain
  obtain ⟨-, hout, -⟩ := runResult s s1 t h ho hd
  obtain ⟨-, hout', -⟩ := runResult s' s1' t' h' ho' hd'
  rw [hout', hsnk', hchain, hout, hsnk, List.nil_append, List.nil_append, maskbuf_maskbuf]

/-- A run on an empty source that has not ended yet has made no call. -/
structure NoCallYet (c : Word) (u : State) : Prop where
  phase : u.phase = .init ∨ u.phase = .read
  portLog : u.portLog = []
  src : u.src = []
  endless : u.endless = false
  chunk : u.chunk = c

theorem NoCallYet.microStep {c : Word} {u v : State} (h : NoCallYet c u) (hm : MicroStep u v)
    (hv : v.phase.resting = false) : NoCallYet c v := by
  obtain ⟨hphase, hlog, hsrc, hend, hchunk⟩ := h
  cases hm with
  | initConfig | readEnd | readFail | writeFail => cases hv
  | initStart => exact ⟨.inr rfl, hlog, hsrc, hend, hchunk⟩
  | readWait hp hr =>
    have hnf : (afterSrcRead u.chunk u).phase ≠ .fail := by simp [hp]
    obtain ⟨he, -⟩ := (MicroStep.readWait hp hr).account hnf
    exact ⟨.inr hp, by simp [srcCall_of_waiting hr, hlog], (srcLeft_of_waiting hr).trans hsrc, he.trans hend, hchunk⟩
  | readChunk b bs hp hr =>
    obtain ⟨hsplit, -⟩ := srcReply_ok hr
    rw [srcHeld_of_finite u.chunk hend, hsrc] at hsplit
    cases hsplit
  | maskChunk hp | writeWait hp | writeOk hp | advance hp => simp [hp] at hphase

/-- Settles O50: the result of a run at an empty input, and no call before the last step. -/
theorem emptyInput : Obligations.EmptyInput := by
  intro s s1 t h ho hsrc hd
  obtain ⟨hend, hout, hoff, hk, he, -⟩ := runResult s s1 t h ho hd
  obtain ⟨hp, hb, hs1⟩ := exec_xform_cases h.accepted
  obtain ⟨u, ⟨-, hlog, -, -, hchunk⟩, hm⟩ := h.last_microStep (P := NoCallYet s.chunk)
    (fun u ⟨hphase, hlog, hs, hf, hc⟩ => ⟨hphase, hlog, hs, hf, hc⟩)
    (by rw [hs1]; exact ⟨.inl rfl, ho.boundFresh hp hb, hsrc, hend, rfl⟩) (fun _ _ hu hm hv => hu.microStep hm hv)
  refine ⟨by rw [hout, hsrc, maskbuf_nil, List.append_nil], by rw [hoff, hsrc]; rfl, statusWord_eq hd hk he, ?_⟩
  obtain ⟨-, hr, rfl⟩ := hm.into_done hd
  rw [hchunk] at hr
  simp [srcCall_of_ok hr, hlog, hchunk]

/-- What a run that ends by a failed write leaves: the chunk in hand, masked, and a front part of it in the sink. -/
theorem Progress.writeFail {s u : State} (h : Progress s u) (hp : u.phase = .write) {code : Word}
    (hr : snkReply u = .failed code) : ∃ pre last j, u.Holds pre last ∧ bufChunk u = maskbuf u.offset last ∧
      j ≤ last.length ∧ (afterSinkWrite (bufChunk u) u).snk =
        s.snk ++ maskbuf 0#64 (readBytes pre) ++ (maskbuf u.offset last).take j := by
  obtain ⟨pre, last, hh, hb⟩ := h.atWrite hp
  obtain ⟨j, hj, ht⟩ := snkTakes_of_failed (bufChunk u) hr
  rw [hb, maskbuf_length] at hj
  refine ⟨pre, last, j, hh, hb, hj, ?_⟩
  rw [afterSinkWrite_snk, ht, h.given, hh.log, hb]
  simp [hh.earlier]

/-- Settles O47, by the step that fails: INIT before any call, READ after whole chunks, WRITE with one chunk in hand. -/
theorem failedRunResult : Obligations.FailedRunResult := by
  intro s s1 t h ho hf
  obtain ⟨u, hu, hm⟩ := h.progress ho
  have hchunk := hu.chunk
  cases hm with
  | initStart | readEnd | readChunk | maskChunk | writeOk | advance => cases hf
  | readWait hp | writeWait hp => cases hp.symm.trans hf
  | initConfig hp hc =>
    have hlog := hu.order.initFresh hp
    exact .inl ⟨rfl, hchunk ▸ hc, hu.untouched hp, hu.endless, by simp [hu.given, hlog], rfl, hlog⟩
  | readFail code hp hr =>
    obtain ⟨hw, hoff⟩ := hu.masked.atRead hp
    refine .inr (.inl ⟨rfl, rfl, ⟨u.portLog, ?_⟩, fun he => ⟨u.src, ?_⟩, ?_, ?_⟩)
    · rw [hchunk] at hr
      simp [srcCall_of_failed hr, hchunk]
    · simpa [srcCall_of_failed hr] using hu.taken he
    · simpa [srcCall_of_failed hr, ← hw] using hu.given
    · simpa [srcCall_of_failed hr, ← masked_length hw] using hoff
  | writeFail code hp hr =>
    obtain ⟨pre, last, j, ⟨hlog, hearlier, hplace, hne, hfits⟩, hb, hj, hsnk⟩ := hu.writeFail hp hr
    rw [hchunk] at hlog hfits
    refine .inr (.inr ⟨rfl, rfl, pre, readBytes pre, last, j, ?_, rfl, ?_, fun he => ?_, hne, hfits, hj, hb, ?_, hplace⟩)
    · simp [snkCall_of_failed hr, hlog, hb, hplace]
    · simp [snkCall_of_failed hr, hlog]
    · simpa [hlog] using hu.taken he
    · rw [← hplace]; exact hsnk

end Sys2Proof.Machine
end

section
namespace Sys2Proof.Machine

/-! The coming answers of the ports (R195). -/

theorem srcKeepsAnswering.mono {m n : Nat} {as : List SrcAnswer} (h : srcKeepsAnswering n as) (hm : m ≤ n) :
    srcKeepsAnswering m as :=
  ⟨h.1, hm.trans h.2⟩

theorem snkKeepsAnswering.mono {m n : Nat} {as : List SnkAnswer} (h : snkKeepsAnswering n as) (hm : m ≤ n) :
    snkKeepsAnswering m as :=
  ⟨h.1, hm.trans h.2⟩

/-- The next answer of a source port that keeps answering is a wait, after which it owes as many, or a delivery. -/
theorem srcKeepsAnswering.cases {n : Nat} {as : List SrcAnswer} (h : srcKeepsAnswering (n + 1) as) :
    (∃ rest, as = .wait :: rest ∧ srcKeepsAnswering (n + 1) rest) ∨
    (∃ k rest, as = .deliver k :: rest ∧ srcKeepsAnswering n rest) := by
  obtain ⟨hfail, hcount⟩ := h
  match as with
  | [] => cases hcount
  | .wait :: rest => exact .inl ⟨rest, rfl, fun a ha => hfail a (.tail _ ha), hcount⟩
  | .deliver k :: rest =>
    exact .inr ⟨k, rest, rfl, fun a ha => hfail a (.tail _ ha), Nat.le_of_succ_le_succ hcount⟩
  | .fail code :: rest => exact absurd rfl (hfail _ (.head _) code)

/-- The next answer of a sink port that keeps answering is a wait, after which it owes as many, or an acceptance. -/
theorem snkKeepsAnswering.cases {n : Nat} {as : List SnkAnswer} (h : snkKeepsAnswering (n + 1) as) :
    (∃ rest, as = .wait :: rest ∧ snkKeepsAnswering (n + 1) rest) ∨
    (∃ rest, as = .ok :: rest ∧ snkKeepsAnswering n rest) := by
  obtain ⟨hfail, hcount⟩ := h
  match as with
  | [] => cases hcount
  | .wait :: rest => exact .inl ⟨rest, rfl, fun a ha => hfail a (.tail _ ha), hcount⟩
  | .ok :: rest => exact .inr ⟨rest, rfl, fun a ha => hfail a (.tail _ ha), Nat.le_of_succ_le_succ hcount⟩
  | .fail code j :: rest => exact absurd rfl (hfail _ (.head _) code j)

/-- A source port that keeps answering uses up an answer: it waits and owes as many, or it delivers. -/
theorem srcReply_of_keepsAnswering {n : Nat} {s : State} (m : Word) (h : srcKeepsAnswering (n + 1) s.srcAnswers) :
    s.srcAnswers.tail.length < s.srcAnswers.length ∧
      ((srcReply m s = .waiting ∧ srcKeepsAnswering (n + 1) s.srcAnswers.tail) ∨
        (∃ bs, srcReply m s = .ok bs ∧ srcKeepsAnswering n s.srcAnswers.tail)) := by
  obtain ⟨rest, ha, hk⟩ | ⟨k, rest, ha, hk⟩ := h.cases
  · have hr : srcReply m s = .waiting := by simp only [srcReply, nextSrcAnswer, ha]
    rw [ha]
    exact ⟨Nat.lt_succ_self _, .inl ⟨hr, hk⟩⟩
  · have hn : nextSrcAnswer s = .deliver k := by simp only [nextSrcAnswer, ha]
    rw [ha]
    exact ⟨Nat.lt_succ_self _, .inr ⟨_, srcReply_of_deliver m hn, hk⟩⟩

/-- A sink port that keeps answering uses up an answer: it waits and owes as many, or it accepts. -/
theorem snkReply_of_keepsAnswering {n : Nat} {s : State} (h : snkKeepsAnswering (n + 1) s.snkAnswers) :
    s.snkAnswers.tail.length < s.snkAnswers.length ∧
      ((snkReply s = .waiting ∧ snkKeepsAnswering (n + 1) s.snkAnswers.tail) ∨
        (snkReply s = .ok ∧ snkKeepsAnswering n s.snkAnswers.tail)) := by
  obtain ⟨rest, ha, hk⟩ | ⟨rest, ha, hk⟩ := h.cases
  · have hr : snkReply s = .waiting := by simp only [snkReply, nextSnkAnswer, ha]
    rw [ha]
    exact ⟨Nat.lt_succ_self _, .inl ⟨hr, hk⟩⟩
  · have hr : snkReply s = .ok := by simp only [snkReply, nextSnkAnswer, ha]
    rw [ha]
    exact ⟨Nat.lt_succ_self _, .inr ⟨hr, hk⟩⟩

/-! A run whose ports keep answering goes on (R195). -/

/-- A running state, with no reset to come, whose source port owes `r` deliveries and whose sink port `w` acceptances. -/
structure Going (r w : Nat) (u : State) : Prop where
  running : u.phase.resting = false
  noReset : true ∉ u.resetLine
  chunk : u.chunk ≠ 0#32
  reads : srcKeepsAnswering r u.srcAnswers
  writes : snkKeepsAnswering w u.snkAnswers

theorem Going.mono {r w r' w' : Nat} {u : State} (h : Going r w u) (hr : r' ≤ r) (hw : w' ≤ w) : Going r' w' u :=
  ⟨h.running, h.noReset, h.chunk, h.reads.mono hr, h.writes.mono hw⟩

theorem Going.usedLevel {r w : Nat} {u : State} (h : Going r w u) : Going r w (usedLevel u) :=
  ⟨h.running, not_mem_usedLevel h.noReset, h.chunk, h.reads, h.writes⟩

theorem Going.step {r w : Nat} {u : State} (h : Going r w u) :
    ∃ v, step u = .next v ∧ MicroStep (Machine.usedLevel u) v := by
  obtain ⟨v, hv⟩ := exec_running_next (s := Machine.usedLevel u) h.running
  exact ⟨v, (step_of_running (head?_ne_of_not_mem h.noReset) h.running).trans hv,
    microStep_of_exec (s := Machine.usedLevel u) h.running hv⟩

/-- A step to a running phase leaves a run going with the answers that are left. -/
theorem Going.of_microStep {r w r' w' : Nat} {u v : State} (h : Going r w u) (hm : MicroStep u v)
    (hp : v.phase.resting = false) (hr : srcKeepsAnswering r' v.srcAnswers) (hw : snkKeepsAnswering w' v.snkAnswers) :
    Going r' w' v := by
  obtain ⟨-, -, hl, hc, -⟩ := hm.hostSide
  exact ⟨hp, hl ▸ h.noReset, hc ▸ h.chunk, hr, hw⟩

/-- A measure that every step of a run with listed answers lowers: two for each answer, and one where the next step asks no
port. -/
def workLeft (u : State) : Nat :=
  2 * (u.srcAnswers.length + u.snkAnswers.length) + (if u.phase = .read ∨ u.phase = .write then 0 else 1)

/-- Any step that uses up an answer lowers the measure. -/
theorem workLeft_lt_of_answer {u v : State}
    (h : v.srcAnswers.length + v.snkAnswers.length < u.srcAnswers.length + u.snkAnswers.length) :
    workLeft v < workLeft u := by
  unfold workLeft
  split <;> split <;> omega

/-- One chunk has been read and not yet accepted in MASK and WRITE. -/
def pending (u : State) : Nat := if u.phase = .mask ∨ u.phase = .write then 1 else 0

/-- What a step of a run whose ports keep answering can do: end the stream; go on with the same source; read a chunk. -/
theorem Going.microStep_cases {r w : Nat} {u v : State} (h : Going (r + 1) (w + pending u) u) (hm : MicroStep u v) :
    (v.phase = .done ∧ srcReply u.chunk u = .ok []) ∨
    (v.src = u.src ∧ Going (r + 1) (w + pending v) v ∧ workLeft v < workLeft u) ∨
    (∃ b bs, srcReply u.chunk u = .ok (b :: bs) ∧ v.src = srcLeft u.chunk u ∧ pending v = 1 ∧ Going r w v ∧
      workLeft v < workLeft u) := by
  have keep {r' w' : Nat} := h.of_microStep (r' := r') (w' := w') hm
  obtain ⟨-, -, hc, hreads, hwrites⟩ := h
  obtain ⟨hlen, hreply⟩ := srcReply_of_keepsAnswering u.chunk hreads
  cases hm with
  | initConfig _ hz => exact absurd hz hc
  | readEnd _ hr => exact .inl ⟨rfl, hr⟩
  | initStart hp | maskChunk hp | advance hp =>
    simp only [pending, hp] at hwrites
    exact .inr (.inl ⟨rfl, keep rfl hreads hwrites, by simp [workLeft, hp]⟩)
  | readWait hp hr =>
    obtain ⟨-, hk⟩ | ⟨bs, hr', -⟩ := hreply
    · simp only [pending, hp] at hwrites
      refine .inr (.inl ⟨srcLeft_of_waiting hr, keep (by simp [hp, Phase.resting]) hk ?_,
        workLeft_lt_of_answer (Nat.add_lt_add_right hlen _)⟩)
      simpa [pending, hp] using hwrites
    · cases hr.symm.trans hr'
  | readChunk b bs hp hr =>
    obtain ⟨hr', -⟩ | ⟨bs, -, hk⟩ := hreply
    · cases hr.symm.trans hr'
    · simp only [pending, hp] at hwrites
      exact .inr (.inr ⟨b, _, hr, rfl, rfl, keep rfl hk hwrites, workLeft_lt_of_answer (Nat.add_lt_add_right hlen _)⟩)
  | readFail code hp hr =>
    obtain ⟨hr', -⟩ | ⟨bs, hr', -⟩ := hreply <;> cases hr.symm.trans hr'
  | writeWait hp hr =>
    simp only [pending, hp] at hwrites
    obtain ⟨hlen, ⟨-, hk⟩ | ⟨hr', -⟩⟩ := snkReply_of_keepsAnswering hwrites
    · refine .inr (.inl ⟨rfl, keep (by simp [hp, Phase.resting]) hreads ?_,
        workLeft_lt_of_answer (Nat.add_lt_add_left hlen _)⟩)
      simpa [pending, hp] using hk
    · cases hr.symm.trans hr'
  | writeOk hp hr =>
    simp only [pending, hp] at hwrites
    obtain ⟨hlen, ⟨hr', -⟩ | ⟨-, hk⟩⟩ := snkReply_of_keepsAnswering hwrites
    · cases hr.symm.trans hr'
    · exact .inr (.inl ⟨rfl, keep rfl hreads hk, workLeft_lt_of_answer (Nat.add_lt_add_left hlen _)⟩)
  | writeFail code hp hr =>
    simp only [pending, hp] at hwrites
    obtain ⟨-, ⟨hr', -⟩ | ⟨hr', -⟩⟩ := snkReply_of_keepsAnswering hwrites <;> cases hr.symm.trans hr'

/-- An accepted XFORM begins a run that goes on while its ports answer. -/
theorem going_start {r w : Nat} {s s1 : State} (h : exec .xform s = .next s1) (hno : true ∉ s.resetLine)
    (hc : s.chunk ≠ 0#32) (hr : srcKeepsAnswering r s.srcAnswers) (hw : snkKeepsAnswering w s.snkAnswers) :
    Going r w s1 := by
  obtain ⟨-, -, rfl⟩ := exec_xform_cases h
  exact ⟨rfl, hno, hc, hr, hw⟩

/-- A run that goes on has the kind of source it had. -/
theorem Going.endless {r w : Nat} {u v : State} (h : Going r w v) (hm : MicroStep u v) : v.endless = u.endless :=
  (hm.account fun hf => by have hp := h.running; rw [hf] at hp; cases hp).1

/-- A run on a source that ends, with a delivery for each byte left and one for the end, and an acceptance for each byte left
and for the chunk in hand, reaches DONE. -/
theorem reaches_done_of_going {u : State} (he : u.endless = false)
    (h : Going (u.src.length + 1) (u.src.length + pending u) u) : ∃ t, RunEnds u t ∧ t.phase = .done := by
  obtain ⟨v, hstep, hm⟩ := h.step
  obtain ⟨hd, -⟩ | ⟨hsrc, hv, hlt⟩ | ⟨b, bs, hr, hsrc, hpend, hv, hlt⟩ := h.usedLevel.microStep_cases hm
  · exact ⟨v, runEnds_of_step h.running hstep (runEnds_of_resting (by rw [hd]; rfl)), hd⟩
  · have hgo : Going (v.src.length + 1) (v.src.length + pending v) v := by rw [hsrc]; exact hv
    obtain ⟨t, ht, hd⟩ := reaches_done_of_going ((hv.endless hm).trans he) hgo
    exact ⟨t, runEnds_of_step h.running hstep ht, hd⟩
  · obtain ⟨hsplit, -⟩ := srcReply_ok hr
    have hlen := congrArg List.length hsplit
    rw [← hsrc, srcHeld_of_finite (s := Machine.usedLevel u) _ he, List.length_append, List.length_cons,
      usedLevel_src] at hlen
    obtain ⟨t, ht, hd⟩ := reaches_done_of_going ((hv.endless hm).trans he) (hv.mono (by omega) (by omega))
    exact ⟨t, runEnds_of_step h.running hstep ht, hd⟩
termination_by workLeft u

/-- Settles O51, with the answers that the statement grants at acceptance. -/
theorem runTerminates : Obligations.RunTerminates := by
  intro s s1 h hno hc he hr hw
  have hs := going_start h hno hc hr hw
  obtain ⟨-, -, rfl⟩ := exec_xform_cases h
  exact reaches_done_of_going he hs

/-- A run on an endless source is in a running phase as long as its ports answer. -/
theorem not_rested_of_going {k : Nat} {u : State} (he : u.endless = true) (h : Going k k u) : runToRest k u = none := by
  induction k generalizing u with
  | zero => exact runToRest_zero_of_running h.running
  | succ k ih =>
    have hpend : pending u ≤ 1 := by unfold pending; split <;> decide
    obtain ⟨v, hstep, hm⟩ := h.step
    rw [runToRest_of_step h.running hstep]
    have hu : Going (k + 1) (k + pending u) u := h.mono le_rfl (by omega)
    obtain ⟨-, hr⟩ | ⟨-, hv, -⟩ | ⟨b, bs, -, -, -, hv, -⟩ := hu.usedLevel.microStep_cases hm
    · obtain ⟨hf, -⟩ := src_of_end h.chunk hr
      cases he.symm.trans hf
    · exact ih ((hv.endless hm).trans he) (hv.mono (Nat.le_succ k) (Nat.le_add_right k _))
    · exact ih ((hv.endless hm).trans he) hv

/-- Settles O52: an endless source never gives the empty answer, which alone leads into DONE; and while the ports keep
answering every step leads to a running phase. -/
theorem endlessRunGoesOn : Obligations.EndlessRunGoesOn := by
  refine ⟨fun s s1 t h he hd => ?_, fun s s1 k h hno hc he hr hw => ?_⟩
  · obtain ⟨u, ⟨heu, hcu⟩, hm⟩ := h.last_microStep
      (P := fun u => u.endless = true ∧ (u.phase ≠ .init → u.chunk ≠ 0#32)) (fun _ hu => hu)
      (by obtain ⟨-, -, rfl⟩ := exec_xform_cases h.accepted; exact ⟨he, absurd rfl⟩)
      (by
        rintro u v ⟨heu, hcu⟩ hm hv
        have hf : v.phase ≠ .fail := fun hf => by rw [hf] at hv; cases hv
        exact ⟨(hm.account hf).1.trans heu, fun _ => hm.chunk_ne_zero hcu hf⟩)
    obtain ⟨hp, hr, -⟩ := hm.into_done hd
    obtain ⟨hfin, -⟩ := src_of_end (hcu (by simp [hp])) hr
    cases heu.symm.trans hfin
  · have hs := going_start h hno hc hr hw
    obtain ⟨-, -, rfl⟩ := exec_xform_cases h
    exact not_rested_of_going he hs

end Sys2Proof.Machine
end

section
namespace Sys2Proof.Machine

/-! Two runs that began with different leftovers in the block (R42, R198, R219). -/

/-- What the ports, the record and the outcome of a run depend on: the state without the registers and the buffer that an
earlier run or the host may have left, and without the host's script, its reads and the binding. -/
def State.runPart (s : State) : State :=
  { s with
    offset := 0#64, len := 0#32, buf := [], bufGen := 0, pos := 0#64, maskval := 0#8
    binding := .unbound, script := [], reads := [] }

/-- Two runs stand at the same place: they agree but for leftovers, and on those that this run has written itself. -/
structure SameRun (u u' : State) : Prop where
  runPart : u'.runPart = u.runPart
  offset : u.phase ≠ .init → u'.offset = u.offset
  chunk : u.phase.holdsChunk = true → bufChunk u' = bufChunk u

/-- What does not look at leftovers is the same in both. -/
theorem SameRun.congr {α : Type} {u u' : State} (h : SameRun u u') (f : State → α) (hf : ∀ s, f s.runPart = f s) :
    f u' = f u := by
  rw [← hf, h.runPart, hf]

theorem SameRun.phase {u u' : State} (h : SameRun u u') : u'.phase = u.phase :=
  h.congr State.phase fun _ => rfl

theorem SameRun.usedLevel {u u' : State} (h : SameRun u u') : SameRun (usedLevel u) (usedLevel u') :=
  ⟨h.congr (fun w => (Machine.usedLevel w).runPart) fun _ => rfl, h.offset, h.chunk⟩

theorem SameRun.applyReset {u u' : State} (h : SameRun u u') : SameRun (applyReset u) (applyReset u') :=
  ⟨h.congr (fun w => (Machine.applyReset w).runPart) fun _ => rfl, fun _ => rfl, nofun⟩

/-- While a chunk is held its length is the same too. -/
theorem SameRun.len {u u' : State} (h : SameRun u u') (hh : u.phase.holdsChunk = true) : u'.len = u.len :=
  BitVec.eq_of_toNat_eq (by rw [← bufChunk_length, ← bufChunk_length, h.chunk hh])

/-- A step of the one run has its counterpart in the other. -/
theorem SameRun.microStep {u u' v : State} (h : SameRun u u') (hm : MicroStep u v) :
    ∃ v', MicroStep u' v' ∧ SameRun v v' := by
  have hph := h.phase
  have hc : u'.chunk = u.chunk := h.congr State.chunk fun _ => rfl
  have hread : srcReply u'.chunk u' = srcReply u.chunk u := h.congr (fun w => srcReply w.chunk w) fun _ => rfl
  have hwrite : snkReply u' = snkReply u := h.congr snkReply fun _ => rfl
  cases hm with
  | initConfig hp hz =>
    refine ⟨_, .initConfig (hph.trans hp) (hc.trans hz), ?_, fun _ => rfl, nofun⟩
    exact h.congr (fun w => (release (raise .config w)).runPart) fun _ => rfl
  | initStart hp hz =>
    refine ⟨_, .initStart (hph.trans hp) (hc ▸ hz), ?_, fun _ => rfl, nofun⟩
    exact h.congr (fun w => State.runPart { w with phase := .read }) fun _ => rfl
  | readWait hp hr =>
    have ho := h.offset (by simp [hp])
    refine ⟨_, .readWait (hph.trans hp) (hread.trans hr), ?_, fun _ => ho, fun hh => ?_⟩
    · exact h.congr (fun w => (afterSrcRead w.chunk w).runPart) fun _ => rfl
    · rw [afterSrcRead_phase, hp] at hh; cases hh
  | readEnd hp hr =>
    have ho := h.offset (by simp [hp])
    refine ⟨_, .readEnd (hph.trans hp) (hread.trans hr), ?_, fun _ => ho, nofun⟩
    exact h.congr (fun w => State.runPart (release { afterSrcRead w.chunk w with phase := .done })) fun _ => rfl
  | readChunk b bs hp hr =>
    have ho := h.offset (by simp [hp])
    have hr' := hread.trans hr
    refine ⟨_, .readChunk b bs (hph.trans hp) hr', ?_, fun _ => ho, fun _ => ?_⟩
    · exact h.congr (fun w => State.runPart { afterSrcRead w.chunk w with phase := .mask }) fun _ => rfl
    · rw [bufChunk_readChunk hr, bufChunk_readChunk hr']
  | readFail code hp hr =>
    have ho := h.offset (by simp [hp])
    refine ⟨_, .readFail code (hph.trans hp) (hread.trans hr), ?_, fun _ => ho, nofun⟩
    exact h.congr (fun w => State.runPart (release (raise (.readFailed code)
      { afterSrcRead w.chunk w with draws := w.draws + 1 + 1 }))) fun _ => rfl
  | maskChunk hp =>
    have ho := h.offset (by simp [hp])
    have hb := h.chunk (by rw [hp]; rfl)
    refine ⟨_, .maskChunk (hph.trans hp), ?_, fun _ => ho, fun _ => ?_⟩
    · exact h.congr (fun w => State.runPart { w with phase := .write }) fun _ => rfl
    · rw [bufChunk_maskChunk, bufChunk_maskChunk, ho, hb]
  | writeWait hp hr =>
    have ho := h.offset (by simp [hp])
    have hb := h.chunk (by rw [hp]; rfl)
    refine ⟨_, .writeWait (hph.trans hp) (hwrite.trans hr), ?_, fun _ => ho, fun _ => hb⟩
    rw [hb]
    exact h.congr (fun w => (afterSinkWrite (bufChunk u) w).runPart) fun _ => rfl
  | writeOk hp hr =>
    have ho := h.offset (by simp [hp])
    have hb := h.chunk (by rw [hp]; rfl)
    refine ⟨_, .writeOk (hph.trans hp) (hwrite.trans hr), ?_, fun _ => ho, fun _ => hb⟩
    rw [hb]
    exact h.congr (fun w => State.runPart { afterSinkWrite (bufChunk u) w with phase := .adv }) fun _ => rfl
  | writeFail code hp hr =>
    have ho := h.offset (by simp [hp])
    have hb := h.chunk (by rw [hp]; rfl)
    refine ⟨_, .writeFail code (hph.trans hp) (hwrite.trans hr), ?_, fun _ => ho, nofun⟩
    rw [hb]
    exact h.congr (fun w => State.runPart (release (raise (.writeFailed code) (afterSinkWrite (bufChunk u) w))))
      fun _ => rfl
  | advance hp =>
    have ho := h.offset (by simp [hp])
    have hl := h.len (by rw [hp]; rfl)
    refine ⟨_, .advance (hph.trans hp), ?_, fun _ => ?_, nofun⟩
    · exact h.congr (fun w => State.runPart { w with phase := .read }) fun _ => rfl
    · simp only [ho, hl]

/-- A step of a run, with or without reset, has its counterpart in the other. -/
theorem SameRun.step {u u' v : State} (h : SameRun u u') (hp : u.phase.resting = false) (hv : step u = .next v) :
    ∃ v', Machine.step u' = .next v' ∧ SameRun v v' := by
  have hline : u'.resetLine = u.resetLine := h.congr State.resetLine fun _ => rfl
  have hp' : u'.phase.resting = false := by rw [h.phase, hp]
  by_cases hl : u.resetLine.head? = some true
  · cases (step_of_resetLine hl).symm.trans hv
    exact ⟨_, step_of_resetLine (hline ▸ hl), h.usedLevel.applyReset⟩
  · obtain ⟨v', hm, hsame⟩ := h.usedLevel.microStep ((step_iff_microStep hl hp).mp hv)
    exact ⟨v', (step_iff_microStep (hline ▸ hl) hp').mpr hm, hsame⟩

/-- Two runs at the same place end at the same place. -/
theorem SameRun.runEnds {u u' t : State} (h : SameRun u u') (ht : RunEnds u t) :
    ∃ t', RunEnds u' t' ∧ SameRun t t' ∧ t.phase.resting = true := by
  obtain ⟨k, hk⟩ := ht
  induction k using Nat.strong_induction_on generalizing u u' with
  | _ k ih =>
    obtain ⟨hp, rfl⟩ | ⟨hp, j, v, rfl, hv, hk⟩ := runToRest_cases hk
    · exact ⟨u', runEnds_of_resting (by rw [h.phase, hp]), h, hp⟩
    · obtain ⟨v', hv', hsame⟩ := h.step hp hv
      obtain ⟨t', ht', hrest⟩ := ih j (Nat.lt_succ_self j) hsame hk
      exact ⟨t', runEnds_of_step (by rw [h.phase, hp]) hv' ht', hrest⟩

/-- Settles O53: acceptance brings both states to the same place of a run, where nothing has been written yet. -/
theorem noLeakBetweenRuns : Obligations.NoLeakBetweenRuns := by
  intro s s' s1 s1' t h h' ht hc hsrc hend hsnk hsa hka hline hdraws hlog
  obtain ⟨-, -, rfl⟩ := exec_xform_cases h
  obtain ⟨-, -, rfl⟩ := exec_xform_cases h'
  have hsame : SameRun { clearErrors s with phase := .init } { clearErrors s' with phase := .init } :=
    ⟨by simp [State.runPart, clearErrors, hc, hsrc, hend, hsnk, hsa, hka, hline, hdraws, hlog], absurd rfl, nofun⟩
  obtain ⟨t', ht', hst, hrest⟩ := hsame.runEnds ht
  have field {α : Type} (f : State → α) := hst.congr f
  refine ⟨t', ht', field State.phase fun _ => rfl, field State.errkind fun _ => rfl, field State.errsite fun _ => rfl,
    field State.iocode fun _ => rfl, hst.offset fun hi => ?_, field State.src fun _ => rfl, field State.snk fun _ => rfl,
    field State.portLog fun _ => rfl⟩
  rw [hi] at hrest
  cases hrest

end Sys2Proof.Machine
end
